-- ==== Sys2Proof/Word.lean ====
section
/-! DEFINITION. The byte that port frames, step records and the stored image are made of (R5, R142, R159). Every other
quantity of the part is a plain integer in the unit the manual fixes for it (section 4.1 of 00_scope.md). -/

namespace Sys2Proof

/-- One byte of a frame, of a step record or of the calibration image. -/
abbrev Byte := BitVec 8

end Sys2Proof
end

