-- ==== Sys2Proof/Config.lean ====
section
/-! DEFINITION. The free values: what the manual leaves without a value. Each is an opaque constant with no body, so that
nothing can be proved of the value it gives. -/

namespace Sys2Proof.Config

/-- A byte of a step record in a step slot that nothing has written since the last power-on or RESET (R7: "After power-on
or RESET pin release the contents of step memory are undefined"). Arguments: the number of resets so far, the step address
and the byte of the record. Assumption log entry 3. -/
opaque undefinedStepByte : Nat → Nat → Nat → BitVec 8

/-- A byte of a readout for which the manual states a field but neither a value nor an absent encoding (R167: the hold
timer with no hold, the weigh target with no armed weigh part). The argument is a draw number that State counts, so two
reads need not agree. Assumption log entry 4. -/
opaque unstatedByte : Nat → BitVec 8

end Sys2Proof.Config
end

