-- ==== Sys2Proof/Syntax.lean ====
section
/-! DEFINITION. The commands of the part: one constructor for each row of spec/opcode_table.json. The part is a block: its
commands are the request transfers of its two ports, the conversions, measurements and switch changes that reach it from
the appliance, and the expiries of its own timers. -/

namespace Sys2Proof

/-- Bowl 1 and bowl 2 (section 4.4 of 00_scope.md). -/
inductive BowlId
  | one
  | two
  deriving DecidableEq, Repr

/-- Port A and port B. The part does not distinguish their roles (R156). -/
inductive PortId
  | portA
  | portB
  deriving DecidableEq, Repr

/-- The two switch inputs of a bowl (R108). -/
inductive SwitchId
  | lid
  | confirm
  deriving DecidableEq, Repr

/-- The state a switch input reads: OPEN or CLOSED (R105). -/
inductive SwitchLevel
  | opened
  | closed
  deriving DecidableEq, Repr

/-- How the autoload read of the 128-byte image ended (R144): the EEPROM failed to acknowledge at some point, or all 128
bytes were read. -/
inductive AutoloadRead
  | noAck
  | image (bytes : Vector Byte 128)
  deriving DecidableEq, Repr

/-- What every request transfer carries beside its request code and parameters (R157, R159): the port it is framed on, the
tag its master chose, and the number of fill bytes clocked after the end of the request frame. -/
structure Xfer where
  port : PortId
  tag : Byte
  fill : Nat
  deriving DecidableEq, Repr

/-- The commands. A request carries its transfer and its parameter bytes, in frame order, as R162 lists them; the number of
parameter bytes is itself tested by the part (R161). -/
inductive Instr
  -- requests on a port (R162)
  | nop (x : Xfer) (params : List Byte)
  | getStatus (x : Xfer) (params : List Byte)
  | readPage (x : Xfer) (params : List Byte)
  | getNotices (x : Xfer) (params : List Byte)
  | ackNotice (x : Xfer) (params : List Byte)
  | setNotice (x : Xfer) (params : List Byte)
  | setThreshold (x : Xfer) (params : List Byte)
  | resetPort (x : Xfer) (params : List Byte)
  | openRecipe (x : Xfer) (params : List Byte)
  | writeStep (x : Xfer) (params : List Byte)
  | sealRecipe (x : Xfer) (params : List Byte)
  | discardRecipe (x : Xfer) (params : List Byte)
  | unloadRecipe (x : Xfer) (params : List Byte)
  | listRecipes (x : Xfer) (params : List Byte)
  | start (x : Xfer) (params : List Byte)
  | manual (x : Xfer) (params : List Byte)
  | pause (x : Xfer) (params : List Byte)
  | resume (x : Xfer) (params : List Byte)
  | stop (x : Xfer) (params : List Byte)
  | skipStep (x : Xfer) (params : List Byte)
  | answer (x : Xfer) (params : List Byte)
  | adjust (x : Xfer) (params : List Byte)
  | tare (x : Xfer) (params : List Byte)
  | clearFault (x : Xfer) (params : List Byte)
  | setBowlConfig (x : Xfer) (params : List Byte)
  | calibrateZero (x : Xfer) (params : List Byte)
  | calibrateSpan (x : Xfer) (params : List Byte)
  | abortCalibration (x : Xfer) (params : List Byte)
  | saveCalibration (x : Xfer) (params : List Byte)
  | setPowerCap (x : Xfer) (params : List Byte)
  | setArbitration (x : Xfer) (params : List Byte)
  -- the other transfers
  /-- A transfer of these whole bytes whose frame fails a check of R160. -/
  | badFrame (p : PortId) (bytes : List Byte)
  /-- A good frame whose request code is not in the table of R162. -/
  | unknownRequest (x : Xfer) (code : Byte) (params : List Byte)
  /-- A chip-select release after no whole byte; `bits` bits of a part-byte were clocked (R157). -/
  | emptyTransfer (p : PortId) (bits : Fin 8)
  -- power and reset
  | powerOn
  | resetPinAssert
  | resetPinRelease
  | autoloadComplete (r : AutoloadRead)
  -- events at the weighing, heating and stirring units
  /-- A bridge conversion of the bowl's channel with its raw sample, signed 24-bit (R60). -/
  | loadCellConversion (b : BowlId) (sample : BitVec 24)
  | holdOffExpiry (b : BowlId)
  /-- A sensor conversion of the bowl with its 12-bit code (R82). -/
  | temperatureConversion (b : BowlId) (code : BitVec 12)
  | relaySettleExpiry (b : BowlId)
  | configSettleExpiry (b : BowlId)
  /-- A tacho completion with the pulses counted in the last 50 ms (R107). -/
  | tachoMeasurement (b : BowlId) (pulses : Nat)
  | standstillTimerExpiry (b : BowlId)
  | stallTimerExpiry (b : BowlId)
  | lockTimerExpiry (b : BowlId)
  | rampStep (b : BowlId)
  | intervalPhaseChange (b : BowlId)
  /-- The level of a switch input changes to `level` (R108). -/
  | switchLevelChange (b : BowlId) (sw : SwitchId) (level : SwitchLevel)
  | lidChange (b : BowlId) (level : SwitchLevel)
  | confirmSwitchChange (b : BowlId) (level : SwitchLevel)
  | switchFirstReading (b : BowlId) (sw : SwitchId) (level : SwitchLevel)
  -- events at the power arbiter
  /-- A zero-cross, `since` microseconds after the one before it (R125). -/
  | zeroCrossArrival (since : Nat)
  | gapTimerExpiry
  -- events at the step engines
  | timeExpiry (b : BowlId)
  | holdLimitExpiry (b : BowlId)
  | endPendingCompletion (b : BowlId)
  -- events at the calibration block and the ports
  /-- The end of a page write: `acked` says whether every byte of it was acknowledged (R154). -/
  | eepromPageWriteDone (acked : Bool)
  | eepromPageTimeout
  | portReady (p : PortId)
  deriving DecidableEq, Repr

end Sys2Proof
end

