-- ==== Sys2Proof/Machine/State.lean ====
section
/-! DEFINITION. Everything the part holds, block by block as the chapters give it, and the state after power-on or RESET
pin release. All of it is plain data. Temperatures are in 0.1 °C, masses in 0.1 g, speeds in rpm, power in 10 W units;
step, hold and phase timers count 0.1 s up, and every other timer holds the milliseconds it has left. -/

namespace Sys2Proof.Machine

open Sys2Proof

/-- One value for each bowl. -/
structure PerBowl (α : Type) where
  one : α
  two : α
  deriving DecidableEq, Repr

/-- One value for each port. -/
structure PerPort (α : Type) where
  portA : α
  portB : α
  deriving DecidableEq, Repr

/-- The value of bowl `b`. -/
def PerBowl.get {α : Type} (p : PerBowl α) : BowlId → α
  | .one => p.one
  | .two => p.two

/-- `p` with the value of bowl `b` replaced. -/
def PerBowl.set {α : Type} (p : PerBowl α) (b : BowlId) (v : α) : PerBowl α :=
  match b with
  | .one => { p with one := v }
  | .two => { p with two := v }

/-- The value of a port. -/
def PerPort.get {α : Type} (p : PerPort α) : PortId → α
  | .portA => p.portA
  | .portB => p.portB

/-- `p` with the value of one port replaced. -/
def PerPort.set {α : Type} (p : PerPort α) (q : PortId) (v : α) : PerPort α :=
  match q with
  | .portA => { p with portA := v }
  | .portB => { p with portB := v }

/-! ## Recipe store (chapter 1) -/

/-- The 22 bytes of a step record, as received (R5). -/
abbrev Record := Vector Byte 22

/-- Why a seal failed (R20). -/
inductive SealReason
  | unwritten
  | triggerPart
  | loopNest
  | branchTarget
  | fallsOff
  | breakWithoutClose
  deriving DecidableEq, Repr

/-- A seal fault: the step index and the reason (R20). -/
structure SealFault where
  index : Nat
  reason : SealReason
  deriving DecidableEq, Repr

/-- A recipe table entry, with the fields R11 holds in each state. -/
inductive Entry
  | free
  | loading (id : Nat) (owner : PortId) (start length : Nat) (written : List Nat) (fault : Option SealFault)
  | ready (id : Nat) (start length : Nat) (users : PerBowl Bool) (usesWeighing : Bool)
  deriving DecidableEq, Repr

/-- A run of consecutive step slots (R8). -/
structure Extent where
  start : Nat
  length : Nat
  deriving DecidableEq, Repr

/-- The recipe store: step memory as the records written since the last reset, by rising address (R7); the recipe table
(R11); the free-extent list (R8). -/
structure Store where
  mem : List (Nat × Record)
  table : Vector Entry 8
  free : List Extent
  deriving DecidableEq, Repr

/-! ## Step engines (chapter 2) -/

/-- The bowl states (R26). -/
inductive BowlState
  | idle
  | running
  | paused
  | holding
  | calibrating
  | fault
  deriving DecidableEq, Repr

/-- What a bowl runs: nothing, a recipe slot, or a manual step (R26). -/
inductive RunSource
  | noRun
  | slot (n : Nat)
  | manual
  deriving DecidableEq, Repr

/-- The record in force: the 22 bytes of the stored or synthetic step and, for a loop open, its matched close index. -/
structure InForce where
  bytes : Record
  close : Option Nat
  deriving DecidableEq, Repr

/-- A loop stack entry (R26). -/
structure LoopEntry where
  opens : Nat
  closes : Nat
  remaining : Nat
  deriving DecidableEq, Repr

/-- The eight flags of the condition word (R34). -/
structure FlagWord where
  t : Bool
  m : Bool
  o : Bool
  s : Bool
  l : Bool
  b : Bool
  y : Bool
  n : Bool
  deriving DecidableEq, Repr

/-- The pause-cause set, a subset of {REQUEST, LID, MAINS} (R26). -/
structure PauseSet where
  request : Bool
  lid : Bool
  mains : Bool
  deriving DecidableEq, Repr

/-- The state a PAUSED bowl goes back to (R26). -/
inductive ResumeState
  | running
  | holding
  deriving DecidableEq, Repr

/-- The band in force of a hold (R52). -/
inductive HoldBand
  | warm
  | hot
  deriving DecidableEq, Repr

/-- A hold: band in force, limit in minutes, hold timer in 0.1 s (R26). -/
structure Hold where
  band : HoldBand
  limit : Nat
  timer : Nat
  deriving DecidableEq, Repr

/-- The fault causes (R54). -/
inductive FaultCause
  | overtemp
  | sensor
  | stall
  | lock
  deriving DecidableEq, Repr

/-- A set of fault causes (R54, R55). -/
structure CauseSet where
  overtemp : Bool
  sensor : Bool
  stall : Bool
  lock : Bool
  deriving DecidableEq, Repr

/-- A fault capture (R54). -/
structure Capture where
  cause : FaultCause
  stateAtFault : BowlState
  source : RunSource
  stepIndex : Option Nat
  stepTimer : Nat
  value : Int
  further : CauseSet
  deriving DecidableEq, Repr

/-- The run context of a bowl (R26). The last three fields are the model's own: whether the step in force has had its parts
handed since its entry (the mark of R87), and the milliseconds of the current tenth of a second of the step and hold timers
(assumption log entry 2). -/
structure RunContext where
  state : BowlState
  source : RunSource
  record : Option InForce
  stepIndex : Option Nat
  loops : List LoopEntry
  flags : FlagWord
  stepTimer : Nat
  endPending : Bool
  offset : Option Int
  speedOverride : Option Nat
  extension : Nat
  prompt : Option Nat
  pauses : PauseSet
  resume : Option ResumeState
  hold : Option Hold
  capture : Option Capture
  partsHanded : Bool
  stepMs : Nat
  holdMs : Nat
  deriving DecidableEq, Repr

/-! ## Weighing channels (chapter 3) -/

/-- Tare status of an armed weigh part (R71). -/
inductive TareStatus
  | pending
  | captured
  deriving DecidableEq, Repr

/-- An armed weigh part: target and tolerance in 0.1 g, tare status (R59). -/
structure Armed where
  target : Int
  tolerance : Int
  tare : TareStatus
  deriving DecidableEq, Repr

/-- The decision last reported (R59, R74). -/
inductive Decision
  | undecided
  | inBand
  | over
  deriving DecidableEq, Repr

/-- A weighing channel (R59). `filter` is the accumulator F, in counts × 256; `added` is the added mass a as the last
conversion with a mass formed it (R70). -/
structure Channel where
  filter : Option Int
  reloadPending : Bool
  massAvailable : Bool
  mass : Int
  overload : Bool
  tarePoint : Int
  added : Int
  window : List Int
  stable : Bool
  disturbed : Bool
  seen : PerBowl Nat
  holdOff : Option Nat
  part : Option Armed
  decision : Decision
  mReported : Bool
  deriving DecidableEq, Repr

/-! ## Heating units (chapter 4) -/

/-- The two heater elements of a bowl; the stage is the element a unit regulates with. -/
inductive Element
  | main
  | keep
  deriving DecidableEq, Repr

/-- Stage modes (R94). -/
inductive StageMode
  | auto
  | mainOnly
  | keepOnly
  deriving DecidableEq, Repr

/-- The heat orders (R81, R87, R165). -/
inductive HeatOrder
  | noHeat
  | step (target : Int) (ramp : Option Nat) (offset : Option Int)
  | hold (target : Int)
  | forcedOff
  deriving DecidableEq, Repr

/-- The direction of the T decision (R90). -/
inductive TDirection
  | rising
  | falling
  deriving DecidableEq, Repr

/-- Relay states (R97). -/
inductive Relay
  | opened
  | settling
  | closed
  deriving DecidableEq, Repr

/-- A running relay settle: the stage it runs toward and the time left (R97). -/
structure Settle where
  toward : Element
  left : Nat
  deriving DecidableEq, Repr

/-- A heating unit (R81). `grantStage` is the stage the grant in force is for, none once a stage has become active after the
grant (assumption log entry 31). `firing` is the triac gate output: the element fired for the half-cycle in progress (R101). -/
structure HeatUnit where
  temp : Option Int
  sensorOut : Bool
  latch : Bool
  order : HeatOrder
  target : Option Int
  effective : Option Int
  rampLimit : Option Nat
  rampRemainder : Nat
  tDirection : TDirection
  tReported : Bool
  integral : Int
  lastError : Int
  computed : Nat
  posted : Nat
  shortLast : Bool
  active : Option Element
  relayMain : Relay
  relayKeep : Relay
  settle : Option Settle
  pendingSwitch : Option Element
  lowCount : Nat
  highCount : Nat
  grant : Nat
  grantStage : Option Element
  holdDefault : Nat
  configSettle : Option Nat
  firing : Option Element
  deriving DecidableEq, Repr

/-! ## Stirring and lid units (chapter 5) -/

/-- Motor direction. -/
inductive Direction
  | forward
  | reverse
  deriving DecidableEq, Repr

/-- The stir orders (R106). `interval` holds on and off times in 0.1 s; absent means CONTINUOUS. -/
inductive StirOrder
  | speedZero
  | stir (speed : Nat) (dir : Direction) (interval : Option (Nat × Nat))
  | forcedOff
  deriving DecidableEq, Repr

/-- Standstill (R105). -/
inductive Standstill
  | reached
  | timing (left : Nat)
  | notReached
  deriving DecidableEq, Repr

/-- Lock states (R105). -/
inductive Lock
  | released
  | engaging
  | confirmed
  deriving DecidableEq, Repr

/-- A switch input: its state, its running 20 ms filter (the level it waits for and the time left), and whether its first
reading has been made (R108). -/
structure SwitchInput where
  level : SwitchLevel
  filter : Option (SwitchLevel × Nat)
  firstRead : Bool
  deriving DecidableEq, Repr

/-- A stirring and lid unit (R105). `phaseMs` and `rampMs` are the model's own: the milliseconds of the current tenth of the
phase timer, and those since the last ramp step (assumption log entry 2). -/
structure StirUnit where
  order : StirOrder
  phaseOn : Bool
  phaseTimer : Nat
  drive : Direction
  pendingDir : Option Direction
  reversalHold : Bool
  mainsHold : Bool
  ceiling : Option Nat
  target : Nat
  setpoint : Nat
  measured : Nat
  standstill : Standstill
  stall : Option Nat
  lid : SwitchInput
  confirm : SwitchInput
  lock : Lock
  lockTimer : Option Nat
  hot : Option Int
  phaseMs : Nat
  rampMs : Nat
  deriving DecidableEq, Repr

/-! ## Power arbiter (chapter 6) -/

/-- Arbitration modes (R131, R132). -/
inductive ArbMode
  | stay
  | fit
  deriving DecidableEq, Repr

/-- A motor's part of a window account (R138). -/
structure MotorAccount where
  demand : Nat
  grant : Nat
  ceiling : Option Nat
  deriving DecidableEq, Repr

/-- A heater's part of a window account (R138). The rating is absent with no active stage. -/
structure HeaterAccount where
  stage : Option Element
  rating : Option Nat
  posted : Nat
  demand : Nat
  grant : Nat
  grantPower : Nat
  deriving DecidableEq, Repr

/-- A window account (R138). -/
structure Account where
  sequence : Nat
  cap : Nat
  budget : Nat
  mode : ArbMode
  pointerBefore : BowlId
  pointerAfter : BowlId
  motors : PerBowl MotorAccount
  remainder : Nat
  heaters : PerBowl HeaterAccount
  servedFirst : BowlId
  leftOver : Nat
  motorShort : PerBowl Bool
  heaterShort : PerBowl Bool
  deriving DecidableEq, Repr

/-- How an account's window ended (R138). -/
inductive Ended
  | completed
  | abandoned (halfCycles : Nat)
  deriving DecidableEq, Repr

/-- The power arbiter (R122). `sinceCross` counts microseconds since the last zero-cross. `overtaken` is the model's own: the gap
timer ran out and an arrival was taken before its expiry, which still waits in the queue (R124, assumption log entry 9). -/
structure Arbiter where
  present : Bool
  restoration : Nat
  gap : Option Nat
  sinceCross : Option Nat
  overtaken : Bool
  position : Option Nat
  sequence : Nat
  rating : Nat
  cap : Nat
  pendingCap : Option Nat
  mode : ArbMode
  pendingMode : Option ArbMode
  modeByRequest : Bool
  pointer : BowlId
  current : Option Account
  lastEnded : Option (Account × Ended)
  deriving DecidableEq, Repr

/-! ## Scale calibration and image (chapter 7) -/

/-- The per-bowl calibration values in force (R141). -/
structure CalValues where
  trim : Nat
  zero : Int
  gain : Nat
  k : Nat
  band : Nat
  kp : Nat
  ki : Nat
  mainRating : Nat
  keepRating : Nat
  mode : StageMode
  deriving DecidableEq, Repr

/-- Calibration kinds (R146, R150). -/
inductive CalKind
  | zero
  | span (reference : Nat)
  deriving DecidableEq, Repr

/-- Where a calibration stands: sweeping with a trim under test (R147), or capturing in an attempt with its running sum
(R148). -/
inductive CalPhase
  | sweep (trimUnderTest : Nat)
  | capture (attempt : Nat) (sum : Int)
  deriving DecidableEq, Repr

/-- A calibration context: kind, phase, conversion count, the locked trim of a zero calibration, and the saved trim, Z and
G (R146, R150). -/
structure CalContext where
  kind : CalKind
  phase : CalPhase
  count : Nat
  lockedTrim : Option Nat
  savedTrim : Nat
  savedZero : Int
  savedGain : Nat
  deriving DecidableEq, Repr

/-- Calibration outcomes (R151). -/
inductive CalOutcome
  | success
  | trimRange
  | disturbed
  | spanTooSmall
  | overload
  | aborted
  deriving DecidableEq, Repr

/-- What the calibration block holds for one bowl (R141). -/
structure BowlCal where
  values : CalValues
  zeroValid : Bool
  context : Option CalContext
  lastOutcome : Option CalOutcome
  deriving DecidableEq, Repr

/-- Autoload status (R141). -/
inductive Autoload
  | inFlight
  | loaded
  | absent
  | bad
  deriving DecidableEq, Repr

/-- A save in flight: the image snapshot, the page being written and the time it has left (R153, R154). -/
structure SaveJob where
  image : Vector Byte 128
  page : Nat
  left : Nat
  deriving DecidableEq, Repr

/-- Save outcomes (R154). -/
inductive SaveOutcome
  | ok
  | writeFailed
  deriving DecidableEq, Repr

/-- The global state of the calibration block (R141). -/
structure ImageUnit where
  autoload : Autoload
  save : Option SaveJob
  lastSave : Option SaveOutcome
  deriving DecidableEq, Repr

/-! ## Ports and notices (chapters 8 and 9) -/

/-- Status codes (R163). -/
inductive Status
  | ok
  | clamped
  | accepted
  | badFrame
  | unknownRequest
  | badParam
  | busy
  | wrongState
  | notOwner
  | noSlot
  | noSpace
  | inUse
  | invalidRecipe
  | promptClosed
  | promptMismatch
  | interlock
  | uncalibrated
  | unstable
  | settling
  | persists
  deriving DecidableEq, Repr

/-- A response: tag, status and results (R159). -/
structure Response where
  tag : Byte
  status : Status
  results : List Byte
  deriving DecidableEq, Repr

/-- A port (R156), whether it is ready for a transfer (R171), and the bytes its data output sent in its last transfer (an
output, R157). -/
structure Port where
  rx : List Byte
  rxCount : Nat
  response : Option Response
  outPos : Nat
  ready : Bool
  sent : List Byte
  deriving DecidableEq, Repr

/-- A port's notice state (R173). Bit c of `flags` and of `enables` is cause number c. -/
structure NoticePort where
  flags : BitVec 15
  enables : BitVec 15
  priority : Vector (Fin 4) 15
  threshold : Fin 4
  deriving DecidableEq, Repr

/-! ## The whole part -/

/-- The per-bowl blocks of one bowl. -/
structure Bowl where
  run : RunContext
  weigh : Channel
  heat : HeatUnit
  stir : StirUnit
  cal : BowlCal
  deriving DecidableEq, Repr

/-- The state of the part. `inReset` says that the RESET pin is asserted. `resets` and `draws` are the model's own counters
for the free values (assumption log entries 3 and 4), and `pending` is the queue of commands that wait, first in, first
out. -/
structure State where
  store : Store
  bowls : PerBowl Bowl
  image : ImageUnit
  arbiter : Arbiter
  ports : PerPort Port
  notices : PerPort NoticePort
  inReset : Bool
  resets : Nat
  draws : Nat
  pending : List Instr
  deriving DecidableEq, Repr

/-- The faults of a step: there are none. Every command of the table has an effect in every state, and what the manual
calls a fault (OVERTEMP, SENSOR, STALL, LOCK) is a bowl state, not an end of the run. -/
inductive Fault
  deriving DecidableEq, Repr

/-- The refusals of a step. -/
inductive Refusal
  /-- Raised by an arm of exec whose command has no meaning yet, and by nothing else. Safe: no state follows. -/
  | notModelled (mnemonic : String)
  deriving DecidableEq, Repr

/-! ## Starting values -/

/-- No flag set. -/
def FlagWord.clear : FlagWord := ⟨false, false, false, false, false, false, false, false⟩

/-- No pause cause. -/
def PauseSet.empty : PauseSet := ⟨false, false, false⟩

/-- No fault cause. -/
def CauseSet.empty : CauseSet := ⟨false, false, false, false⟩

/-- Starting values of the recipe store (R7, R8, R11). -/
def Store.initial : Store := ⟨[], Vector.replicate 8 .free, [⟨0, 256⟩]⟩

/-- Starting values of a run context (R26). -/
def RunContext.initial : RunContext where
  state := .idle
  source := .noRun
  record := none
  stepIndex := none
  loops := []
  flags := .clear
  stepTimer := 0
  endPending := false
  offset := none
  speedOverride := none
  extension := 0
  prompt := none
  pauses := .empty
  resume := none
  hold := none
  capture := none
  partsHanded := false
  stepMs := 0
  holdMs := 0

/-- Starting values of a weighing channel (R59). -/
def Channel.initial : Channel where
  filter := none
  reloadPending := true
  massAvailable := false
  mass := 0
  overload := false
  tarePoint := 0
  added := 0
  window := []
  stable := false
  disturbed := false
  seen := ⟨0, 0⟩
  holdOff := none
  part := none
  decision := .undecided
  mReported := false

/-- Starting values of a heating unit (R81). -/
def HeatUnit.initial : HeatUnit where
  temp := none
  sensorOut := false
  latch := false
  order := .noHeat
  target := none
  effective := none
  rampLimit := none
  rampRemainder := 0
  tDirection := .rising
  tReported := false
  integral := 0
  lastError := 0
  computed := 0
  posted := 0
  shortLast := false
  active := none
  relayMain := .opened
  relayKeep := .opened
  settle := none
  pendingSwitch := none
  lowCount := 0
  highCount := 0
  grant := 0
  grantStage := none
  holdDefault := 60
  configSettle := none
  firing := none

/-- A switch input before its first reading (R105, R108). -/
def SwitchInput.initial : SwitchInput := ⟨.opened, none, false⟩

/-- Starting values of a stirring and lid unit (R105). -/
def StirUnit.initial : StirUnit where
  order := .speedZero
  phaseOn := true
  phaseTimer := 0
  drive := .forward
  pendingDir := none
  reversalHold := false
  mainsHold := true
  ceiling := none
  target := 0
  setpoint := 0
  measured := 0
  standstill := .reached
  stall := none
  lid := .initial
  confirm := .initial
  lock := .released
  lockTimer := none
  hot := none
  phaseMs := 0
  rampMs := 0

/-- Starting values of the power arbiter (R122). -/
def Arbiter.initial : Arbiter where
  present := false
  restoration := 0
  gap := none
  sinceCross := none
  overtaken := false
  position := none
  sequence := 0
  rating := 360
  cap := 200
  pendingCap := none
  mode := .fit
  pendingMode := none
  modeByRequest := false
  pointer := .one
  current := none
  lastEnded := none

/-- The default calibration values of a bowl (R141). -/
def CalValues.defaults : CalValues where
  trim := 128
  zero := 0
  gain := 0
  k := 64
  band := 20
  kp := 48
  ki := 8
  mainRating := 140
  keepRating := 30
  mode := .auto

/-- Starting values of a bowl's calibration state (R141). -/
def BowlCal.initial : BowlCal := ⟨.defaults, false, none, none⟩

/-- Starting values of the image unit: autoload is in flight (R141, R144). -/
def ImageUnit.initial : ImageUnit := ⟨.inFlight, none, none⟩

/-- Starting values of a port (R156); it is ready for a transfer. -/
def Port.initial : Port := ⟨[], 0, none, 0, true, []⟩

/-- Starting values of a port's notice state (R173). -/
def NoticePort.initial : NoticePort := ⟨0, 0, Vector.replicate 15 0, 0⟩

/-- Starting values of the per-bowl blocks. -/
def Bowl.initial : Bowl := ⟨.initial, .initial, .initial, .initial, .initial⟩

/-- The part right after power-on or RESET pin release, with no command waiting. -/
def State.reset : State where
  store := .initial
  bowls := ⟨.initial, .initial⟩
  image := .initial
  arbiter := .initial
  ports := ⟨.initial, .initial⟩
  notices := ⟨.initial, .initial⟩
  inReset := false
  resets := 0
  draws := 0
  pending := []

/-! ## Access by bowl and by port -/

/-- The per-bowl blocks of bowl `b`. -/
def State.bowl (s : State) (b : BowlId) : Bowl := s.bowls.get b

/-- `s` with the per-bowl blocks of bowl `b` replaced. -/
def State.setBowl (s : State) (b : BowlId) (x : Bowl) : State := { s with bowls := s.bowls.set b x }

/-- `s` with the run context of bowl `b` replaced. -/
def State.setRun (s : State) (b : BowlId) (r : RunContext) : State := s.setBowl b { s.bowl b with run := r }

/-- `s` with the weighing channel of bowl `b` replaced. -/
def State.setWeigh (s : State) (b : BowlId) (c : Channel) : State := s.setBowl b { s.bowl b with weigh := c }

/-- `s` with the heating unit of bowl `b` replaced. -/
def State.setHeat (s : State) (b : BowlId) (h : HeatUnit) : State := s.setBowl b { s.bowl b with heat := h }

/-- `s` with the stirring and lid unit of bowl `b` replaced. -/
def State.setStir (s : State) (b : BowlId) (u : StirUnit) : State := s.setBowl b { s.bowl b with stir := u }

/-- `s` with the calibration state of bowl `b` replaced. -/
def State.setCal (s : State) (b : BowlId) (c : BowlCal) : State := s.setBowl b { s.bowl b with cal := c }

/-- `s` with port `p` replaced. -/
def State.setPort (s : State) (p : PortId) (q : Port) : State := { s with ports := s.ports.set p q }

/-- `s` with the notice state of port `p` replaced. -/
def State.setNotice (s : State) (p : PortId) (n : NoticePort) : State := { s with notices := s.notices.set p n }

end Sys2Proof.Machine
end

