-- ==== Sys2Proof/Machine/Ops.lean ====
section
/-! DEFINITION. The shared operations: the manual's arithmetic, byte order, step memory, the raising of notices, and the
guard that the RESET pin puts on every event. -/

namespace Sys2Proof.Machine

open Sys2Proof

/-! ## Arithmetic (section 4.2 of 00_scope.md) -/

/-- The quotient a / b rounded to the nearest integer, a quotient halfway between two going to the even one (R1). -/
def roundConv (a : Int) (b : Nat) : Int :=
  let q := a / (b : Int)
  let r := a % (b : Int)
  if 2 * r < b then q
  else if 2 * r > b then q + 1
  else if q % 2 = 0 then q
  else q + 1

/-- A value below the range becomes its lower end, a value above it its upper end (section 4.2 of 00_scope.md). -/
def clampInt (lo hi v : Int) : Int := if v < lo then lo else if hi < v then hi else v

/-- Clamping on naturals. -/
def clampNat (lo hi v : Nat) : Nat := if v < lo then lo else if hi < v then hi else v

/-! ## Bytes: multi-byte values are sent most significant byte first (R5, R142, R159) -/

/-- A value in one byte. -/
def u8 (n : Nat) : List Byte := [BitVec.ofNat 8 n]

/-- A value in two bytes. -/
def u16 (n : Nat) : List Byte := [BitVec.ofNat 8 (n / 256), BitVec.ofNat 8 n]

/-- A value in three bytes. -/
def u24 (n : Nat) : List Byte := [BitVec.ofNat 8 (n / 65536), BitVec.ofNat 8 (n / 256), BitVec.ofNat 8 n]

/-- A signed value in two bytes, two's complement. -/
def s16 (v : Int) : List Byte := u16 (BitVec.ofInt 16 v).toNat

/-- A signed value in three bytes, two's complement. -/
def s24 (v : Int) : List Byte := u24 (BitVec.ofInt 24 v).toNat

/-- The number that bytes spell, most significant byte first. -/
def beNat (bytes : List Byte) : Nat := bytes.foldl (fun acc b => 256 * acc + b.toNat) 0

/-- The signed number that `w` bits of a value spell in two's complement. -/
def signedOf (w n : Nat) : Int := (BitVec.ofNat w n).toInt

/-- A yes or no as 1 or 0. -/
def bit (c : Bool) : Nat := if c then 1 else 0

/-! ## Step memory (R7) -/

/-- The record held at a step address, or none where nothing has been written since the last reset. -/
def StepMemory.read (mem : List (Nat × Record)) (a : Nat) : Option Record :=
  match mem with
  | [] => none
  | (k, r) :: rest => if k = a then some r else StepMemory.read rest a

/-- Step memory with a record written at a step address; the addresses stay in rising order. -/
def StepMemory.write (mem : List (Nat × Record)) (a : Nat) (r : Record) : List (Nat × Record) :=
  match mem with
  | [] => [(a, r)]
  | (k, q) :: rest =>
    if a < k then (a, r) :: (k, q) :: rest
    else if a = k then (a, r) :: rest
    else (k, q) :: StepMemory.write rest a r

/-- The canonical form of step memory: addresses strictly rising and below 256. -/
def StepMemory.wf (mem : List (Nat × Record)) : Bool :=
  match mem with
  | [] => true
  | [(k, _)] => decide (k < 256)
  | (k, _) :: (j, q) :: rest => decide (k < j) && StepMemory.wf ((j, q) :: rest)

/-- The undefined contents of a step slot after reset number `resets` (R7). -/
def undefinedRecord (resets a : Nat) : Record := Vector.ofFn fun i => Config.undefinedStepByte resets a i.val

/-- The record a step address holds, its contents undefined where nothing has been written (R7). -/
def State.recordAt (s : State) (a : Nat) : Record := (StepMemory.read s.store.mem a).getD (undefinedRecord s.resets a)

/-! ## Notices (R172 to R174) -/

/-- The causes that exist once for each bowl (R172). -/
inductive BowlCause
  | step
  | prompt
  | runEnd
  | paused
  | fault
  | calDone
  deriving DecidableEq, Repr

/-- The fifteen causes (R172). -/
inductive Cause
  | ofBowl (b : BowlId) (c : BowlCause)
  | budgetShort
  | mains
  | storeDone
  deriving DecidableEq, Repr

/-- The place of a bowl cause among the six of its bowl (R172). -/
def BowlCause.number : BowlCause → Nat
  | .step => 0
  | .prompt => 1
  | .runEnd => 2
  | .paused => 3
  | .fault => 4
  | .calDone => 5

/-- Cause numbers, as ACK_NOTICE and GET_NOTICES code them (R162, R172). -/
def Cause.number : Cause → Nat
  | .ofBowl .one c => c.number
  | .ofBowl .two c => 6 + c.number
  | .budgetShort => 12
  | .mains => 13
  | .storeDone => 14

/-- The set that holds one cause. -/
def Cause.mask (c : Cause) : BitVec 15 := BitVec.ofNat 15 (2 ^ c.number)

/-- A port's notice state after a raising: the cause joins its flag set, whatever its enables and threshold (R173). -/
def NoticePort.raise (n : NoticePort) (c : Cause) : NoticePort := { n with flags := n.flags ||| c.mask }

/-- A raising: the cause joins both ports' flag sets (R172, R173). -/
def State.raise (s : State) (c : Cause) : State :=
  { s with notices := ⟨s.notices.portA.raise c, s.notices.portB.raise c⟩ }

/-- Whether cause number `i` is due: set, enabled, and its priority above the threshold (R174). -/
def NoticePort.isDue (n : NoticePort) (i : Fin 15) : Bool :=
  n.flags.getLsbD i.val && n.enables.getLsbD i.val && decide (n.threshold < n.priority[i])

/-- The due set, one bit a cause (R175). -/
def NoticePort.due (n : NoticePort) : Nat :=
  (List.finRange 15).foldl (fun acc i => acc + if n.isDue i then 2 ^ i.val else 0) 0

/-- Whether a port's attention line is asserted: exactly while some flag of the port is due (R174). -/
def NoticePort.attention (n : NoticePort) : Bool := (List.finRange 15).any n.isDue

/-! ## Events -/

/-- Every block holds its starting values and takes no event while the RESET pin is asserted (R26, R59, R81, R105, R122,
R141, R156): an event then changes nothing, and otherwise has its effect. -/
def whileReleased (f : State → State) (s : State) : Host.Outcome State Fault Refusal :=
  .next (if s.inReset then s else f s)

/-- The answer to a request: the state after it, its status and its results (R161). -/
structure Reply where
  state : State
  status : Status
  results : List Byte

/-- A refusal: the request changes nothing and carries no results (R161). -/
def refuse (s : State) (st : Status) : Reply := ⟨s, st, []⟩

/-- Whether autoload is in flight (R145). -/
def State.autoloading (s : State) : Bool := decide (s.image.autoload = .inFlight)

/-- A bowl parameter: one byte, 1 or 2 (R162). -/
def bowlOf (b : Byte) : Option BowlId := if b = 1 then some .one else if b = 2 then some .two else none

/-- The byte that names a bowl. -/
def bowlCode : BowlId → Nat
  | .one => 1
  | .two => 2

/-- The other bowl. -/
def otherBowl : BowlId → BowlId
  | .one => .two
  | .two => .one

end Sys2Proof.Machine
end

