-- ==== Sys2Proof/Machine/Ports.lean ====
section
/-! DEFINITION. The ports (chapter 8): clocking a transfer in and out, request and response frames, the checks of a frame,
and the release that takes a request and leaves its response pending. -/

namespace Sys2Proof.Machine

open Sys2Proof

/-! ## Frames (R159) -/

/-- The sum of bytes modulo 256. -/
def byteSum (bytes : List Byte) : Byte := bytes.foldl (fun acc b => acc + b) 0

/-- The byte that makes a frame's sum a multiple of 256 (R159). -/
def checksum (bytes : List Byte) : Byte := 0 - byteSum bytes

/-- Status codes (R163). -/
def Status.code : Status → Nat
  | .ok => 0
  | .clamped => 1
  | .accepted => 2
  | .badFrame => 3
  | .unknownRequest => 4
  | .badParam => 5
  | .busy => 6
  | .wrongState => 7
  | .notOwner => 8
  | .noSlot => 9
  | .noSpace => 10
  | .inUse => 11
  | .invalidRecipe => 12
  | .promptClosed => 13
  | .promptMismatch => 14
  | .interlock => 15
  | .uncalibrated => 16
  | .unstable => 17
  | .settling => 18
  | .persists => 19

/-- The none response: tag 0, status OK, no results (R158). -/
def Response.noneResponse : Response := ⟨0, .ok, []⟩

/-- A response frame: tag, status code, result length, results, checksum (R159). -/
def Response.frame (r : Response) : List Byte :=
  let body := [r.tag] ++ u8 r.status.code ++ u8 r.results.length ++ r.results
  body ++ [checksum body]

/-- A request frame: start byte, length, code, tag, parameters, checksum (R159). -/
def requestFrame (code tag : Byte) (params : List Byte) : List Byte :=
  let body := [0xA5] ++ u8 (params.length + 5) ++ [code, tag] ++ params
  body ++ [checksum body]

/-- The request code, tag and parameter bytes of a good frame, or none where a check of R160 fails. `rx` holds the first 40
bytes received and `count` the number received. -/
def frameOf (rx : List Byte) (count : Nat) : Option (Byte × Byte × List Byte) :=
  let length := (rx.getD 1 0).toNat
  if rx.getD 0 0 ≠ 0xA5 then none
  else if count < 2 ∨ length < 5 ∨ 40 < length then none
  else if count < length then none
  else if byteSum (rx.take length) ≠ 0 then none
  else some (rx.getD 2 0, rx.getD 3 0, (rx.drop 4).take (length - 5))

/-! ## Clocking (R157) -/

/-- The byte the data output sends next: of the pending response, or of the none response, and 0xFF after its end. -/
def Port.outByte (q : Port) : Byte := (q.response.getD .noneResponse).frame.getD q.outPos 0xFF

/-- One byte clocked: kept while fewer than 40 were received, counted, and answered by the next output byte (R157). -/
def Port.clock (q : Port) (b : Byte) : Port :=
  { q with
    rx := if q.rxCount < 40 then q.rx ++ [b] else q.rx
    rxCount := q.rxCount + 1
    outPos := q.outPos + 1
    sent := q.sent ++ [q.outByte] }

/-- A transfer's whole bytes clocked, from chip-select assertion. -/
def Port.clockAll (q : Port) (bytes : List Byte) : Port := bytes.foldl Port.clock { q with sent := [] }

/-- The release after a transfer that counted no whole byte: nothing is delivered, and the pending response keeps its
position (R157). -/
def Port.releaseEmpty (q : Port) : Port := { q with rx := [], rxCount := 0, ready := false, sent := [] }

/-- The release after a transfer that delivered a request: its response becomes the pending one, from its first byte, and
the port is not ready for 10 µs (R157, R158, R171). -/
def Port.release (q : Port) (r : Response) : Port :=
  { q with rx := [], rxCount := 0, response := some r, outPos := 0, ready := false }

/-- A transfer of whole bytes on a port (R157). One framed while the port is not ready is ignored (R171). `take` is what the
port does with the bytes received, at the release. -/
def State.transfer (s : State) (p : PortId) (bytes : List Byte) (take : List Byte → Nat → State → State × Response) :
    State :=
  if (s.ports.get p).ready then
    let q := (s.ports.get p).clockAll bytes
    if q.rxCount = 0 then s.setPort p (s.ports.get p).releaseEmpty
    else
      let r := take q.rx q.rxCount s
      r.1.setPort p (q.release r.2)
  else s

/-- A request's answer as what a port does with it: the owner's reply becomes the response, with the request's tag (R161). -/
def answerWith (tag : Byte) (owner : State → Reply) (s : State) : State × Response :=
  let r := owner s
  (r.state, ⟨tag, r.status, r.results⟩)

/-- A transfer that carries the request of this code in a good frame with these parameters, and then fill bytes. -/
def State.request (s : State) (code : Byte) (x : Xfer) (params : List Byte) (owner : State → Reply) : State :=
  s.transfer x.port (requestFrame code x.tag params ++ List.replicate x.fill 0) (fun _ _ => answerWith x.tag owner)

/-- A request command: ignored with everything else while the RESET pin is asserted (R156). -/
def takeRequest (code : Byte) (x : Xfer) (params : List Byte) (owner : State → Reply) (s : State) :
    Host.Outcome State Fault Refusal :=
  whileReleased (fun s => s.request code x params owner) s

/-! ## The port events without a request -/

/-- NOP changes nothing and answers OK with no results (R165). -/
def answerNop (params : List Byte) (s : State) : Reply :=
  match params with
  | [] => ⟨s, .ok, []⟩
  | _ => refuse s .badParam

/-- The meaning of NOP (R165). -/
def execNop (x : Xfer) (params : List Byte) (s : State) : Host.Outcome State Fault Refusal :=
  takeRequest 0x00 x params (answerNop params) s

/-- The meaning of EMPTY_TRANSFER (R157): the part-byte is discarded, nothing is delivered. -/
def execEmptyTransfer (p : PortId) (_bits : Fin 8) (s : State) : Host.Outcome State Fault Refusal :=
  whileReleased (fun s => s.transfer p [] (fun _ _ s => (s, .noneResponse))) s

/-- The meaning of PORT_READY (R171): the port is ready for a new transfer. -/
def execPortReady (p : PortId) (s : State) : Host.Outcome State Fault Refusal :=
  whileReleased (fun s => s.setPort p { s.ports.get p with ready := true }) s

end Sys2Proof.Machine
end

