-- ==== Sys2Proof/Machine/Flags.lean ====
section
/-! DEFINITION. The condition word: its numbering, and the events that set and clear its flags (R5, R34, R35). -/

namespace Sys2Proof.Machine

open Sys2Proof

/-- The flags of the condition word (R34). -/
inductive Flag
  | t
  | m
  | o
  | s
  | l
  | b
  | y
  | n
  deriving DecidableEq, Repr

/-- Flag numbers (R5). Only the three low bits of a selector are read. -/
def Flag.ofNumber (k : Nat) : Flag :=
  match k % 8 with
  | 0 => .t
  | 1 => .m
  | 2 => .o
  | 3 => .s
  | 4 => .l
  | 5 => .b
  | 6 => .y
  | _ => .n

/-- The value of a flag. -/
def FlagWord.get (w : FlagWord) : Flag → Bool
  | .t => w.t
  | .m => w.m
  | .o => w.o
  | .s => w.s
  | .l => w.l
  | .b => w.b
  | .y => w.y
  | .n => w.n

/-- The condition word as one byte, bit n for flag number n (R164). -/
def FlagWord.code (w : FlagWord) : Nat :=
  bit w.t + 2 * bit w.m + 4 * bit w.o + 8 * bit w.s + 16 * bit w.l + 32 * bit w.b + 64 * bit w.y + 128 * bit w.n

/-- Step entry clears T, M, O, B, Y and N and leaves S and L (R31). -/
def FlagWord.atEntry (w : FlagWord) : FlagWord :=
  { w with t := false, m := false, o := false, b := false, y := false, n := false }

/-- `s` with the condition word of bowl `b` replaced. -/
def State.setFlags (s : State) (b : BowlId) (w : FlagWord) : State := s.setRun b { (s.bowl b).run with flags := w }

/-- A clamp made in a bowl's context sets its L flag; L starts no trigger evaluation (R35). -/
def State.noteClamp (s : State) (b : BowlId) (clamped : Bool) : State :=
  if clamped then s.setFlags b { (s.bowl b).run.flags with l := true } else s

/-- A budget-short event sets the bowl's B flag and starts no evaluation (R136). -/
def State.noteShort (s : State) (b : BowlId) (short : Bool) : State :=
  if short then s.setFlags b { (s.bowl b).run.flags with b := true } else s

/-- A report of S: the flag follows the report live (R34, R69). -/
def State.reportStable (s : State) (b : BowlId) (stable : Bool) : State :=
  s.setFlags b { (s.bowl b).run.flags with s := stable }

end Sys2Proof.Machine
end

