-- ==== Sys2Proof/Machine/Operands.lean ====
section
/-! DEFINITION. The operand forms: the step record's fields (R2, R3, R5), the checks of a written record (R6), the synthetic
record of a manual run (R30), and the tests that read a record together with the overrides (R28, R36, R52). -/

namespace Sys2Proof.Machine

open Sys2Proof

/-! ## The fields of a record (R5) -/

/-- Byte `i` of a record. -/
def recByte (r : Record) (i : Nat) : Nat := (r.toList.getD i 0).toNat

/-- Bit `j` of byte `i`. -/
def recBit (r : Record) (i j : Nat) : Bool := (recByte r i).testBit j

/-- Two bytes of a record, most significant first. -/
def recPair (r : Record) (i : Nat) : Nat := 256 * recByte r i + recByte r (i + 1)

/-- The heat part: target in 0.1 °C and the ramp limit where present. -/
structure HeatPart where
  target : Int
  ramp : Option Nat
  deriving DecidableEq, Repr

/-- The stir part: speed in rpm, direction, and on and off times in 0.5 s for INTERVAL. -/
structure StirPart where
  speed : Nat
  dir : Direction
  interval : Option (Nat × Nat)
  deriving DecidableEq, Repr

/-- The weigh part: target and tolerance in g, tare-at-entry. -/
structure WeighPart where
  target : Nat
  tolerance : Nat
  tareAtEntry : Bool
  deriving DecidableEq, Repr

/-- The end trigger set. -/
structure Triggers where
  time : Bool
  temp : Bool
  mass : Bool
  prompt : Bool
  deriving DecidableEq, Repr

/-- The hold band a record asks for (R3). -/
inductive BandChoice
  | warm
  | hot
  | auto
  deriving DecidableEq, Repr

/-- The flow of a step (R3). -/
inductive Flow
  | next
  | branch (flag : Flag) (sense : Bool) (target : Nat)
  | finish
  | hold (band : BandChoice) (limit : Nat)
  deriving DecidableEq, Repr

/-- A step record by its fields (R2, R3): an absent part is none. -/
structure Step where
  heat : Option HeatPart
  stir : Option StirPart
  weigh : Option WeighPart
  duration : Option Nat
  prompt : Option Nat
  loopOpen : Option Nat
  loopClose : Bool
  breakTest : Option (Flag × Bool)
  triggers : Triggers
  all : Bool
  flow : Flow
  deriving DecidableEq, Repr

/-- The record with no parts, an empty trigger set, no loop markers, no break test and flow NEXT (R17). -/
def Step.blank : Step := ⟨none, none, none, none, none, none, false, none, ⟨false, false, false, false⟩, false, .next⟩

/-- `some v` where a presence bit is set. -/
def present {α : Type} (p : Bool) (v : α) : Option α := if p then some v else none

/-- A direction bit: 0 FORWARD, 1 REVERSE (R5). -/
def dirOfBit (reverse : Bool) : Direction := if reverse then .reverse else .forward

/-- The band field: 0 WARM, 1 HOT, 2 AUTO (R5); R6 keeps 3 out of step memory. -/
def bandOf (n : Nat) : BandChoice :=
  match n % 4 with
  | 0 => .warm
  | 1 => .hot
  | _ => .auto

/-- The flow of a record, its operands read as the flow selects (R5). -/
def flowOf (r : Record) : Flow :=
  match recByte r 1 / 32 % 4 with
  | 0 => .next
  | 1 => .branch (Flag.ofNumber (recByte r 20)) (recBit r 20 3) (recByte r 21)
  | 2 => .finish
  | _ => .hold (bandOf (recByte r 20)) (recByte r 21)

/-- The record decoded by the table of R5. The bytes of a part are read when its presence bit is set. -/
def Step.ofRecord (r : Record) : Step where
  heat := present (recBit r 0 0) ⟨((recPair r 2 % 512 : Nat) : Int) * 5, present (recBit r 0 1) (recByte r 4)⟩
  stir := present (recBit r 0 2)
    ⟨recPair r 5 % 512 * 20, dirOfBit (recBit r 7 0), present (recBit r 7 1) (recByte r 8, recByte r 9)⟩
  weigh := present (recBit r 0 3) ⟨recPair r 10, recByte r 12, !recBit r 13 0⟩
  duration := present (recBit r 0 4) (65536 * recByte r 14 + recPair r 15)
  prompt := present (recBit r 0 5) (recByte r 17)
  loopOpen := present (recBit r 0 6) (recByte r 18)
  loopClose := recBit r 0 7
  breakTest := present (recBit r 1 7) (Flag.ofNumber (recByte r 19), recBit r 19 3)
  triggers := ⟨recBit r 1 0, recBit r 1 1, recBit r 1 2, recBit r 1 3⟩
  all := recBit r 1 4
  flow := flowOf r

/-- Whether the trigger set is empty. -/
def Triggers.isEmpty (t : Triggers) : Bool := !(t.time || t.temp || t.mass || t.prompt)

/-! ## Coded modes -/

/-- Stage mode codes (R142, R162). -/
def StageMode.code : StageMode → Nat
  | .auto => 0
  | .mainOnly => 1
  | .keepOnly => 2

/-- The stage mode of a code above 2 is none. -/
def stageModeOf (n : Nat) : Option StageMode :=
  match n with
  | 0 => some .auto
  | 1 => some .mainOnly
  | 2 => some .keepOnly
  | _ => none

/-- Arbitration mode codes (R142, R162). -/
def ArbMode.code : ArbMode → Nat
  | .stay => 0
  | .fit => 1

/-- The arbitration mode of a code above 1 is none. -/
def arbModeOf (n : Nat) : Option ArbMode :=
  match n with
  | 0 => some .stay
  | 1 => some .fit
  | _ => none

/-! ## The checks of WRITE_STEP (R6) -/

/-- Whether the flow's operand bytes pass R6. -/
def flowFieldsOk (r : Record) : Bool :=
  match recByte r 1 / 32 % 4 with
  | 1 => decide (recByte r 20 / 16 = 0)
  | 3 => decide (recByte r 20 / 4 = 0) && decide (recByte r 20 % 4 ≠ 3)
  | _ => true

/-- Whether the heat part's fields pass R6. -/
def heatFieldsOk (r : Record) : Bool :=
  !recBit r 0 0 || (decide (recPair r 2 / 512 = 0) && (!recBit r 0 1 || decide (recByte r 4 ≠ 0)))

/-- Whether the stir part's fields pass R6. -/
def stirFieldsOk (r : Record) : Bool :=
  !recBit r 0 2 ||
    (decide (recPair r 5 / 512 = 0) && decide (recByte r 7 / 4 = 0) &&
      (!recBit r 7 1 || (decide (recByte r 8 ≠ 0) && decide (recByte r 9 ≠ 0))))

/-- Whether the weigh part's fields pass R6. -/
def weighFieldsOk (r : Record) : Bool :=
  !recBit r 0 3 || (decide (recPair r 10 ≠ 0) && decide (recByte r 12 ≠ 0) && decide (recByte r 13 / 2 = 0))

/-- Whether the duration, prompt, loop count and break test fields pass R6. -/
def markFieldsOk (r : Record) : Bool :=
  (!recBit r 0 4 || decide (65536 * recByte r 14 + recPair r 15 ≠ 0)) &&
    (!recBit r 0 5 || decide (recByte r 17 ≠ 0)) &&
    (!recBit r 0 6 || decide (recByte r 18 ≠ 0)) &&
    (!recBit r 1 7 || decide (recByte r 19 / 16 = 0))

/-- Whether a record passes every check of R6. -/
def recordOk (r : Record) : Bool :=
  flowFieldsOk r && heatFieldsOk r && stirFieldsOk r && weighFieldsOk r && markFieldsOk r

/-- A list of 22 bytes as a record. -/
def recordOfBytes (bytes : List Byte) : Record := Vector.ofFn fun i => bytes.getD i.val 0

/-! ## Values in force -/

/-- The duration in force: one above 216,000 is taken as 216,000 (R4, R31). -/
def Step.durationInForce (st : Step) : Option Nat := st.duration.map (fun d => min d 216000)

/-- The stir speed in force: the override when present, else the record's speed clamped to 9,600 rpm (R28). -/
def Step.speedInForce (st : Step) (override : Option Nat) : Nat :=
  match override with
  | some v => v
  | none => match st.stir with
    | some p => min p.speed 9600
    | none => 0

/-- A target plus offset, clamped to 30.0 to 180.0 °C (R28, R88). -/
def targetInForce (target : Int) (offset : Option Int) : Int := clampInt 300 1800 (target + offset.getD 0)

/-- The lid-free test (R28): stir speed in force 0, heat target in force absent or at most 60.0 °C, and measured temperature
present and at most 60.0 °C (R84). -/
def Step.lidFree (st : Step) (offset : Option Int) (override : Option Nat) (temp : Option Int) : Bool :=
  decide (st.speedInForce override = 0) &&
    (match st.heat with
      | some h => decide (targetInForce h.target offset ≤ 600)
      | none => true) &&
    (match temp with
      | some t => decide (t ≤ 600)
      | none => false)

/-- Whether a step's triggers are met (R36): TIME by the step timer, TEMP by T, MASS by M or O, PROMPT by Y or N. An empty
set is never met; it ends by its completion (R37). -/
def Step.triggersMet (st : Step) (timer extension : Nat) (w : FlagWord) : Bool :=
  let time := match st.durationInForce with
    | some d => decide (d + extension ≤ timer)
    | none => false
  let temp := w.t
  let mass := w.m || w.o
  let prompt := w.y || w.n
  if st.triggers.isEmpty then false
  else if st.all then
    (!st.triggers.time || time) && (!st.triggers.temp || temp) && (!st.triggers.mass || mass) &&
      (!st.triggers.prompt || prompt)
  else
    (st.triggers.time && time) || (st.triggers.temp && temp) || (st.triggers.mass && mass) ||
      (st.triggers.prompt && prompt)

/-- The stir part a hold keeps: one whose speed in force without overrides is 120 rpm or below and whose pattern is INTERVAL
(R52). -/
def Step.holdStir (st : Step) : Option StirPart :=
  match st.stir with
  | some p => if min p.speed 9600 ≤ 120 ∧ p.interval.isSome then some p else none
  | none => none

/-! ## The synthetic record (R30) -/

/-- The synthetic record of a MANUAL request in the layout of R5: the given target and speed fields, the duration, trigger
set {TIME}, combine ANY, flow FINISH. -/
def syntheticRecord (target : Option Nat) (stir : Option (Nat × Nat)) (duration : Nat) : Record :=
  recordOfBytes
    (u8 (bit target.isSome + 4 * bit stir.isSome + 16) ++ u8 (1 + 32 * 2) ++ u16 (target.getD 0) ++ u8 0 ++
      u16 ((stir.map Prod.fst).getD 0) ++ u8 ((stir.map Prod.snd).getD 0) ++ [0, 0] ++ [0, 0] ++ [0, 0] ++
      u24 duration ++ [0, 0, 0, 0, 0])

/-! ## The effective record of page 0 (R104, R121, R167) -/

/-- Bytes `i` onward of a record replaced. -/
def putBytes (r : List Byte) (i : Nat) (v : List Byte) : List Byte := r.take i ++ v ++ r.drop (i + v.length)

/-- Bit `j` of byte `i` set. -/
def setRecBit (r : List Byte) (i j : Nat) : List Byte := putBytes r i [r.getD i 0 ||| BitVec.ofNat 8 (2 ^ j)]

/-- The effective step record: the record's bytes with each part's values in force after overrides and clamps in place of
the written ones; the target is clamped without the offset (R104, R167). -/
def effectiveRecord (r : Record) (override : Option Nat) : List Byte :=
  let st := Step.ofRecord r
  let b := r.toList
  let b := match st.heat with
    | some h => putBytes b 2 (u16 ((clampInt 300 1800 h.target).toNat / 5))
    | none => b
  let b := match st.heat.bind HeatPart.ramp with
    | some v => putBytes b 4 (u8 (min v 50))
    | none => b
  let b := match st.stir, override with
    | none, none => b
    | none, some v => putBytes (setRecBit b 0 2) 5 (u16 (v / 20) ++ u8 0)
    | some _, _ => putBytes b 5 (u16 (st.speedInForce override / 20))
  let b := match st.stir.bind StirPart.interval with
    | some (on, off) => putBytes b 8 (u8 (min on 60) ++ u8 (min off 60))
    | none => b
  let b := match st.weigh with
    | some w => putBytes b 10 (u16 (min w.target 5000))
    | none => b
  let b := match st.durationInForce with
    | some d => putBytes b 14 (u24 d)
    | none => b
  let b := match st.loopOpen with
    | some c => putBytes b 18 (u8 (min c 250))
    | none => b
  match st.flow with
  | .hold _ limit => putBytes b 21 (u8 (min limit 240))
  | _ => b

end Sys2Proof.Machine
end

