-- ==== Sys2Proof/Machine/Heating.lean ====
section
/-! DEFINITION. The heating unit (chapter 4): heat orders, the effective target, stages and relays, temperature conversion,
regulation, window starts and firing. Each operation is a function of the unit and of the calibration values in force; one
that may clamp also answers whether it did. -/

namespace Sys2Proof.Machine

open Sys2Proof

/-! ## Relays and stages -/

/-- Whether a STEP or HOLD order is in force. -/
def HeatUnit.ordered (h : HeatUnit) : Bool :=
  match h.order with
  | .step _ _ _ => true
  | .hold _ => true
  | .noHeat => false
  | .forcedOff => false

/-- Whether a HOLD order is in force. -/
def HeatUnit.holding (h : HeatUnit) : Bool :=
  match h.order with
  | .hold _ => true
  | _ => false

/-- Whether a STEP order is in force. -/
def HeatUnit.stepping (h : HeatUnit) : Bool :=
  match h.order with
  | .step _ _ _ => true
  | _ => false

/-- The relay of an element. -/
def HeatUnit.relay (h : HeatUnit) : Element → Relay
  | .main => h.relayMain
  | .keep => h.relayKeep

/-- The unit with the relay of an element in another state. -/
def HeatUnit.setRelay (h : HeatUnit) (e : Element) (r : Relay) : HeatUnit :=
  match e with
  | .main => { h with relayMain := r }
  | .keep => { h with relayKeep := r }

/-- A relay's drive output is energised in SETTLING and CLOSED (R97). -/
def Relay.energised : Relay → Bool
  | .opened => false
  | .settling => true
  | .closed => true

/-- The rating of an element, from the calibration values in force. -/
def CalValues.rating (v : CalValues) : Element → Nat
  | .main => v.mainRating
  | .keep => v.keepRating

/-- The stage the table of R94 gives for a STEP or a HOLD order. -/
def selectStage (mode : StageMode) (hold : Bool) : Element :=
  match mode with
  | .auto => if hold then .keep else .main
  | .mainOnly => .main
  | .keepOnly => .keep

/-- Both relays open, the relay settle stops, the pending switch and the active stage become none and the posted demand 0
(R100). -/
def HeatUnit.openRelays (h : HeatUnit) : HeatUnit :=
  { h with
    relayMain := .opened, relayKeep := .opened, settle := none, pendingSwitch := none, active := none, posted := 0 }

/-- A stage's relay is energised and the relay settle starts with 60 ms toward it (R97, R98). -/
def HeatUnit.beginSettle (h : HeatUnit) (e : Element) : HeatUnit :=
  { h.setRelay e .settling with settle := some ⟨e, 60⟩ }

/-- A switch request: during a relay settle it is held as the pending switch, one for the stage the settle runs toward
clearing it (R99); otherwise a switch to a stage other than the active one begins (R98). Both AUTO counts become 0 (R95). -/
def HeatUnit.requestSwitch (h : HeatUnit) (e : Element) : HeatUnit :=
  let h := { h with lowCount := 0, highCount := 0 }
  match h.settle, h.active with
  | some st, _ => { h with pendingSwitch := if e = st.toward then none else some e }
  | none, some a => if e = a then h else h.beginSettle e
  | none, none => h

/-- The stage a new order, or a change of stage mode under an order, calls for (R87, R94, R102). The latch refuses every relay
close (R85). With both relays OPEN the stage of R94 is selected and its relay closed. A HOLD order asks for its stage, held as
pending while a settle runs; a STEP order in AUTO keeps the active stage. -/
def HeatUnit.callStage (h : HeatUnit) (mode : StageMode) : HeatUnit :=
  let called := selectStage mode h.holding
  if h.latch then h
  else if h.relayMain = .opened ∧ h.relayKeep = .opened then h.beginSettle called
  else
    match h.active with
    | none => h.requestSwitch called
    | some a =>
      if h.holding then (if h.settle.isSome ∨ called ≠ a then h.requestSwitch called else h)
      else if mode = .auto ∨ called = a then h
      else h.requestSwitch called

/-! ## Heat orders (R87) -/

/-- The origin of a ramp taken from the measured temperature: 30.0 °C when it is lower or absent, 180.0 °C when it is higher
(R89). -/
def HeatUnit.measuredOrigin (h : HeatUnit) : Int :=
  match h.temp with
  | some t => clampInt 300 1800 t
  | none => 300

/-- The effective target at a STEP handing: the target in force without a ramp limit; at a new-step handing the effective
target held, or else the measured temperature; at a continuation the effective target kept (R89). -/
def HeatUnit.effectiveAtHanding (h : HeatUnit) (isNew : Bool) (target : Int) (ramp : Option Nat) : Int :=
  match ramp, h.effective with
  | none, _ => target
  | some _, some e => if isNew && !h.ordered then h.measuredOrigin else e
  | some _, none => h.measuredOrigin

/-- The ramp remainder at a STEP handing: kept only by a continuation of a ramp (R89). -/
def HeatUnit.remainderAtHanding (h : HeatUnit) (isNew : Bool) (ramp : Option Nat) : Nat :=
  if isNew || ramp.isNone || h.effective.isNone then 0 else h.rampRemainder

/-- The T direction fixed at a new-step handing (R90). -/
def tDirectionFor (target : Int) (temp : Option Int) : TDirection :=
  match temp with
  | some t => if t < target then .rising else .falling
  | none => .falling

/-- A STEP order (R87 to R90): the target in force and ramp limit are formed and clamped, the effective target formed, the T
decision and the AUTO counts restarted by a new-step handing, and a stage called for. Answers whether a clamp was made. -/
def HeatUnit.handStep (h : HeatUnit) (mode : StageMode) (isNew : Bool) (p : HeatPart) (offset : Option Int) :
    HeatUnit × Bool :=
  let asked := p.target + offset.getD 0
  let inForce := targetInForce p.target offset
  let limit := p.ramp.map (fun r => min r 50)
  let clamped := decide (inForce ≠ asked) || decide (limit ≠ p.ramp)
  let h' :=
    { h with
      order := .step p.target p.ramp offset
      target := some inForce
      effective := some (h.effectiveAtHanding isNew inForce limit)
      rampLimit := limit
      rampRemainder := h.remainderAtHanding isNew limit
      tDirection := if isNew then tDirectionFor inForce h.temp else h.tDirection
      tReported := if isNew then false else h.tReported
      lowCount := if isNew then 0 else h.lowCount
      highCount := if isNew then 0 else h.highCount }
  (h'.callStage mode, clamped)

/-- The target of a hold band (R52). -/
def HoldBand.target : HoldBand → Int
  | .warm => 650
  | .hot => 800

/-- A HOLD order (R87): the band target with no ramp and no clamp; the AUTO counts become 0. -/
def HeatUnit.handHold (h : HeatUnit) (mode : StageMode) (band : HoldBand) : HeatUnit :=
  HeatUnit.callStage
    { h with
      order := .hold band.target
      target := some band.target
      effective := some band.target
      rampLimit := none
      lowCount := 0
      highCount := 0 }
    mode

/-- A no-heat order (R87). The integral keeps its value except at the end of a run. -/
def HeatUnit.handNoHeat (h : HeatUnit) (runEnd : Bool) : HeatUnit :=
  { h.openRelays with
    order := .noHeat
    target := none
    effective := none
    rampLimit := none
    lowCount := 0
    highCount := 0
    integral := if runEnd then 0 else h.integral }

/-- Outputs forced to 0: as no heat, and the grant in force and the integral become 0 (R87). The gates are held off from the
next zero-cross because no order is in force (R101). -/
def HeatUnit.forceOff (h : HeatUnit) : HeatUnit :=
  { h.handNoHeat true with order := .forcedOff, grant := 0 }

/-- Mains loss at the unit: the cancellation of R100, the grant taken as 0, the short-last-window record no, the AUTO counts
0 (R95). No half-cycle is in progress any more. -/
def HeatUnit.mainsLoss (h : HeatUnit) : HeatUnit :=
  { h.openRelays with grant := 0, shortLast := false, lowCount := 0, highCount := 0, firing := none }

/-! ## Temperature conversion (R82 to R85) -/

/-- The table of 33 points, in 0.1 °C (R82). -/
def sensorTable : List Int :=
  [-200, -110, -22, 64, 148, 230, 310, 389, 467, 544, 620] ++
    [695, 770, 845, 920, 995, 1070, 1146, 1222, 1299, 1377, 1456] ++
    [1536, 1617, 1700, 1785, 1872, 1961, 2053, 2148, 2246, 2370, 2500]

/-- The temperature of a conversion code in 0.1 °C by straight-line interpolation, or none outside the table (R82, R83). -/
def tempOfCode (c : Nat) : Option Int :=
  if c < 96 ∨ 3936 < c then none
  else
    let j := min ((c - 96) / 120) 31
    let lo := sensorTable.getD j 0
    let hi := sensorTable.getD (j + 1) 0
    some (lo + roundConv (((c - 96 - 120 * j : Nat) : Int) * (hi - lo)) 120)

/-- The over-temperature latch sets (R85). -/
def HeatUnit.setLatch (h : HeatUnit) : HeatUnit := { h.openRelays with latch := true, grant := 0 }

/-- The ramp advance (R89): the ramp limit joins the remainder, and each whole 60 of it moves the effective target 0.1 °C
toward the target in force, where it stops with remainder 0. -/
def HeatUnit.rampAdvance (h : HeatUnit) : HeatUnit :=
  match h.rampLimit, h.target, h.effective with
  | some r, some t, some e =>
    let rem := h.rampRemainder + r
    let moves : Int := (rem / 60 : Nat)
    let e' := if e < t then min (e + moves) t else max (e - moves) t
    { h with effective := some e', rampRemainder := if e' = t then 0 else rem % 60 }
  | _, _, _ => h

/-- Whether the ramp is complete: the effective target equals the target in force (R89). -/
def HeatUnit.rampComplete (h : HeatUnit) : Bool :=
  match h.effective, h.target with
  | some e, some t => decide (e = t)
  | _, _ => false

/-- Whether this conversion reaches T (R90): a STEP order in force, T not yet reported, and the measured temperature within
1.5 °C of the target in force on the side of the T direction. -/
def HeatUnit.reachesT (h : HeatUnit) : Bool :=
  match h.temp, h.target with
  | some t, some target =>
    h.stepping && !h.tReported &&
      (match h.tDirection with
        | .rising => decide (target - 15 ≤ t)
        | .falling => decide (t ≤ target + 15))
  | _, _ => false

/-- The demand of the PI law, limited to 0 to 20 (R91). -/
def demandOf (kp : Nat) (error integral : Int) : Nat := (clampInt 0 20 (roundConv (kp * error + integral) 256)).toNat

/-- Posts the computed demand where R93 lets it: a STEP or HOLD order in force and the active stage's relay CLOSED. -/
def HeatUnit.post (h : HeatUnit) : HeatUnit :=
  match h.active with
  | some a => if h.ordered ∧ h.relay a = .closed then { h with posted := h.computed } else { h with posted := 0 }
  | none => { h with posted := 0 }

/-- One regulation step (R91, R92), made while a STEP or HOLD order is in force and the measured temperature is present. -/
def HeatUnit.regulate (h : HeatUnit) (v : CalValues) : HeatUnit :=
  match h.temp, h.effective with
  | some t, some e =>
    let error := clampInt (-500) 500 (e - t)
    let integral :=
      if h.shortLast && decide (0 ≤ error) then h.integral
      else clampInt 0 5120 (h.integral + roundConv (v.ki * error) 16)
    HeatUnit.post { h with integral := integral, lastError := error, computed := demandOf v.kp error integral }
  | _, _ => h

/-! ## Settles, windows and firing -/

/-- The integral rescaled by the ratio of the ratings, limited to 0 to 5,120 (R96). -/
def rescale (integral : Int) (old new : Nat) : Int := clampInt 0 5120 (roundConv (integral * old) new)

/-- The pending switch evaluated at a settle's expiry: dropped when it names the active stage, else a new switch (R99). -/
def HeatUnit.takePendingSwitch (h : HeatUnit) : HeatUnit :=
  match h.pendingSwitch, h.active with
  | some e, some a => if e = a then { h with pendingSwitch := none } else { h with pendingSwitch := none }.beginSettle e
  | _, _ => { h with pendingSwitch := none }

/-- The relay settle's expiry (R97, R98): the relay closes and its stage becomes active. An initial close posts the computed
demand. A switch rescales the integral, opens the old relay and posts the demand recomputed for the new stage. The grant of
the window in progress is for no stage from then on: what of it is not fired stays unfired, and the new stage fires from the
next window that grants it half-cycles, also where it is the stage the grant was made for (R98, R134; assumption log entry 31).
Then the pending switch is evaluated (R99). -/
def HeatUnit.settleExpiry (h : HeatUnit) (v : CalValues) : HeatUnit :=
  match h.settle with
  | none => h
  | some st =>
    let closed := { h.setRelay st.toward .closed with settle := none, active := some st.toward, grantStage := none }
    let switched :=
      match h.active with
      | none => closed
      | some old =>
        let integral := rescale h.integral (v.rating old) (v.rating st.toward)
        { closed.setRelay old .opened with integral := integral, computed := demandOf v.kp h.lastError integral }
    switched.post.takePendingSwitch

/-- The demand the arbiter reads: posted half-cycles and the stage and rating they are wanted on; nothing with no active
stage (R128). -/
def HeatUnit.demandHalfCycles (h : HeatUnit) : Nat := if h.active.isSome then h.posted else 0

/-- The AUTO counts at a window start, after the grant (R95): `read` is the demand the arbiter read. -/
def HeatUnit.autoCount (h : HeatUnit) (mode : StageMode) (read : Nat) : HeatUnit :=
  if mode = .auto ∧ h.stepping ∧ h.settle.isNone then
    match h.active with
    | some .main =>
      let n := if h.rampComplete ∧ read ≤ 4 then h.lowCount + 1 else 0
      if 10 ≤ n then h.requestSwitch .keep else { h with lowCount := n }
    | some .keep =>
      let n := if read = 20 then h.highCount + 1 else 0
      if 5 ≤ n then h.requestSwitch .main else { h with highCount := n }
    | none => h
  else h

/-- A window start at the unit: the grant in force for the stage it was granted on, the short-last-window record (R92), the
AUTO counts (R95). -/
def HeatUnit.takeGrant (h : HeatUnit) (mode : StageMode) (read grant : Nat) : HeatUnit :=
  HeatUnit.autoCount
    { h with grant := grant, grantStage := h.active, shortLast := decide (grant < read) } mode read

/-- The firing decision for the half-cycle at position `p` (R101). A stage that has become active since the window's start has
no grant in it (R134; assumption log entry 31). -/
def HeatUnit.fire (h : HeatUnit) (p : Nat) : HeatUnit :=
  { h with
    firing :=
      match h.active with
      | some a =>
        if h.ordered ∧ h.latch = false ∧ h.relay a = .closed ∧ h.grantStage = some a ∧ p < h.grant then some a else none
      | none => none }

end Sys2Proof.Machine
end

