-- ==== Sys2Proof/Machine/Stirring.lean ====
section
/-! DEFINITION. The stirring and lid unit (chapter 5): stir orders, target formation, the setpoint, reversal, the lid lock,
stall and the mains. An operation that forms the target also answers whether a limit or a clamp set L. -/

namespace Sys2Proof.Machine

open Sys2Proof

/-! ## The target in stages (R109) -/

/-- The phase speed: the requested speed of a STIR order in its ON phase or with CONTINUOUS, and 0 otherwise, during reversal
hold and during mains hold. -/
def StirUnit.phaseSpeed (u : StirUnit) : Nat :=
  match u.order with
  | .stir speed _ interval =>
    if u.reversalHold ∨ u.mainsHold ∨ (interval.isSome ∧ u.phaseOn = false) then 0 else speed
  | .speedZero => 0
  | .forcedOff => 0

/-- Whether the hot-bowl limit applies: the reading is above 60.0 °C or absent (R84, R109). -/
def StirUnit.isHot (u : StirUnit) : Bool :=
  match u.hot with
  | some t => decide (600 < t)
  | none => true

/-- The free speed: 0 with the lid OPEN, at most 3,000 rpm under the hot-bowl limit. -/
def StirUnit.freeSpeed (u : StirUnit) : Nat :=
  if u.lid.level = .opened then 0 else if u.isHot then min u.phaseSpeed 3000 else u.phaseSpeed

/-- A speed limited to 1,200 rpm unless the lock is CONFIRMED. -/
def StirUnit.lockLimited (u : StirUnit) (v : Nat) : Nat := if u.lock = .confirmed then v else min v 1200

/-- The demand speed, which the arbiter reads. -/
def StirUnit.demandSpeed (u : StirUnit) : Nat := u.lockLimited u.freeSpeed

/-- The lock speed: the free speed limited to the ceiling unless it is NONE. -/
def StirUnit.lockSpeed (u : StirUnit) : Nat :=
  match u.ceiling with
  | some c => min u.freeSpeed c
  | none => u.freeSpeed

/-- The target speed the stages give. -/
def StirUnit.formedTarget (u : StirUnit) : Nat := u.lockLimited u.lockSpeed

/-- Whether some limit lowers the value it is given at this formation (R109). -/
def StirUnit.limited (u : StirUnit) : Bool :=
  decide (u.freeSpeed < u.phaseSpeed) || decide (u.demandSpeed < u.freeSpeed) || decide (u.lockSpeed < u.freeSpeed) ||
    decide (u.formedTarget < u.lockSpeed)

/-! ## The setpoint (R111) -/

/-- A cut of the setpoint to a speed it stands above; a cut stops the stall timer (R111, R116). -/
def StirUnit.cutTo (u : StirUnit) (v : Nat) : StirUnit :=
  if v < u.setpoint then { u with setpoint := v, stall := none } else u

/-- The cuts a formation makes: to 0 with the lid OPEN or in mains hold, to 1,200 rpm with the lock not CONFIRMED. -/
def StirUnit.cuts (u : StirUnit) : StirUnit :=
  if u.lid.level = .opened ∨ u.mainsHold then u.cutTo 0
  else if u.lock = .confirmed then u
  else u.cutTo 1200

/-- One pass of the formation: the target, the cuts, and whether a limit lowered its value. -/
def StirUnit.formPass (u : StirUnit) : StirUnit × Bool := ({ u with target := u.formedTarget }.cuts, u.limited)

/-- The PWM output of a motor drive (R111): off, or driving the motor toward a speed in a direction. The duty by which the
unit's own speed loop holds that speed against the measured one is not stated, and no value of it is modelled (assumption log
entry 30). -/
inductive PwmOutput
  | off
  | toward (speed : Nat) (dir : Direction)
  deriving DecidableEq, Repr

/-- The PWM output (R105, R111): off with the setpoint at 0, as in reset, and otherwise toward the setpoint in the drive
direction. -/
def StirUnit.pwm (u : StirUnit) : PwmOutput := if u.setpoint = 0 then .off else .toward u.setpoint u.drive

/-- The direction output: it always shows the drive direction (R105). -/
def StirUnit.directionOutput (u : StirUnit) : Direction := u.drive

/-! ## Reversal and lock -/

/-- Whether a reversal in flight has come to standstill with the setpoint at 0 (R112). -/
def StirUnit.reversalDone (u : StirUnit) : Bool :=
  u.pendingDir.isSome && decide (u.standstill = .reached) && decide (u.setpoint = 0)

/-- The completion of a reversal: the drive direction becomes the pending one (R112). -/
def StirUnit.completeReversal (u : StirUnit) : StirUnit :=
  { u with drive := u.pendingDir.getD u.drive, pendingDir := none, reversalHold := false }

/-- The release test (R114). -/
def StirUnit.releaseTest (u : StirUnit) : Bool :=
  decide (u.lock ≠ .released) &&
    (decide (u.lockSpeed ≤ 1200 ∧ u.setpoint ≤ 1200 ∧ u.measured ≤ 1200) ||
      decide (u.setpoint = 0 ∧ u.standstill = .reached))

/-- The release of the lock: the solenoid is de-energised and the lock timer stops (R114). -/
def StirUnit.release (u : StirUnit) : StirUnit := { u with lock := .released, lockTimer := none }

/-- Whether a formation engages the lock: RELEASED, lock speed above 1,200 rpm and lid CLOSED (R113). -/
def StirUnit.engages (u : StirUnit) : Bool :=
  decide (u.lock = .released) && decide (1200 < u.lockSpeed) && decide (u.lid.level = .closed)

/-- The engagement of the lock: CONFIRMED at once where the confirm switch is CLOSED, else ENGAGING with 500 ms (R113). -/
def StirUnit.engage (u : StirUnit) : StirUnit :=
  if u.confirm.level = .closed then { u with lock := .confirmed, lockTimer := none }
  else { u with lock := .engaging, lockTimer := some 500 }

/-- The solenoid output: energised in ENGAGING and CONFIRMED (R105). -/
def StirUnit.solenoid (u : StirUnit) : Bool := decide (u.lock ≠ .released)

/-- A formation pass after a change that is made only when `c` holds. -/
def StirUnit.formIf (u : StirUnit) (c : Bool) (change : StirUnit → StirUnit) : StirUnit × Bool :=
  if c then (change u).formPass else (u, false)

/-- The formation of the target (R109) with all that follows from it: a reversal a cut completes (R112), the release test
(R114) and the engagement of the lock within the same formation (R113). Each change re-forms the target. -/
def StirUnit.form (u : StirUnit) : StirUnit × Bool :=
  let f0 := u.formPass
  let f1 := f0.1.formIf f0.1.reversalDone StirUnit.completeReversal
  let f2 := f1.1.formIf f1.1.releaseTest StirUnit.release
  let f3 := f2.1.formIf f2.1.engages StirUnit.engage
  (f3.1, f0.2 || f1.2 || f2.2 || f3.2)

/-- The release test made at an event that is not a formation (R114): a release re-forms the target. -/
def StirUnit.tryRelease (u : StirUnit) : StirUnit × Bool := if u.releaseTest then u.release.form else (u, false)

/-- The direction in effect: the pending direction when one is held, else the drive direction (R106). -/
def StirUnit.directionInEffect (u : StirUnit) : Direction := u.pendingDir.getD u.drive

/-- The direction of a STIR order taken by the table of R112. -/
def StirUnit.takeDirection (u : StirUnit) (d : Direction) : StirUnit :=
  if d = u.directionInEffect then u
  else
    match u.pendingDir with
    | none =>
      if u.standstill = .reached ∧ u.setpoint = 0 then { u with drive := d }
      else { u with pendingDir := some d, reversalHold := true }
    | some _ =>
      if d = u.drive then { u with pendingDir := none, reversalHold := false } else { u with pendingDir := some d }

/-! ## Stir orders (R106) -/

/-- A STIR order: speed and interval times clamped (R4, R106), the pattern restarted by a new-step INTERVAL handing (R110),
the direction taken by R112, the target formed. `p.speed` is the override where one is present. -/
def StirUnit.handStir (u : StirUnit) (isNew : Bool) (p : StirPart) : StirUnit × Bool :=
  let interval := p.interval.map (fun t => (5 * min t.1 60, 5 * min t.2 60))
  let timesClamped :=
    match p.interval with
    | some (on, off) => decide (60 < on) || decide (60 < off)
    | none => false
  let restart := isNew && interval.isSome
  let u1 := { u with
    order := .stir (min p.speed 9600) p.dir interval
    phaseOn := if restart then true else u.phaseOn
    phaseTimer := if restart then 0 else u.phaseTimer
    phaseMs := if restart then 0 else u.phaseMs }
  let f := (u1.takeDirection p.dir).form
  (f.1, f.2 || timesClamped || decide (9600 < p.speed))

/-- A SPEED_ZERO order: directions are kept (R106). -/
def StirUnit.handZero (u : StirUnit) : StirUnit × Bool := { u with order := .speedZero }.form

/-- A FORCED_OFF order: the setpoint is cut to 0, a reversal is dropped, the stall timer stops (R120). -/
def StirUnit.handForcedOff (u : StirUnit) : StirUnit × Bool :=
  StirUnit.form
    { u with order := .forcedOff, setpoint := 0, pendingDir := none, reversalHold := false, stall := none }

/-! ## Events at the unit -/

/-- Standstill after a tacho reading (R107). -/
def standstillAfter (st : Standstill) (measured : Nat) : Standstill :=
  if measured = 0 then
    match st with
    | .notReached => .timing 300
    | .timing left => .timing left
    | .reached => .reached
  else .notReached

/-- Whether the stall condition holds (R116). -/
def StirUnit.stallCondition (u : StirUnit) : Bool :=
  !u.mainsHold && decide (200 ≤ u.setpoint) && decide (2 * u.measured < u.setpoint)

/-- The stall test: the condition starts a stopped timer with 2.0 s, its absence stops the timer (R116). -/
def StirUnit.stallTest (u : StirUnit) : StirUnit :=
  { u with stall := if u.stallCondition then some (u.stall.getD 2000) else none }

/-- The measured speed of a tacho completion (R107). -/
def speedOfPulses (pulses : Nat) : Nat := min (pulses * 20) 12000

/-- A tacho completion at the unit: measured speed, standstill, stall test, release test (R107). -/
def StirUnit.tacho (u : StirUnit) (pulses : Nat) : StirUnit × Bool :=
  let v := speedOfPulses pulses
  StirUnit.tryRelease { u with measured := v, standstill := standstillAfter u.standstill v }.stallTest

/-- Re-forms the target after a reversal that has come to its standstill (R112). -/
def StirUnit.tryReversal (u : StirUnit) : StirUnit × Bool :=
  if u.reversalDone then u.completeReversal.form else (u, false)

/-- Two operations in a row, L set by either. -/
def andThen (f : StirUnit × Bool) (g : StirUnit → StirUnit × Bool) : StirUnit × Bool :=
  let r := g f.1
  (r.1, f.2 || r.2)

/-- The standstill timer's expiry: standstill is reached, which may complete a reversal and release the lock (R107). -/
def StirUnit.standstillExpiry (u : StirUnit) : StirUnit × Bool :=
  match u.standstill with
  | .timing _ => andThen (StirUnit.tryReversal { u with standstill := .reached }) StirUnit.tryRelease
  | .reached => (u, false)
  | .notReached => (u, false)

/-- The setpoint moved 20 rpm toward the target, where it stops (R111). -/
def rampToward (setpoint target : Nat) : Nat :=
  if setpoint < target then min (setpoint + 20) target else max (setpoint - 20) target

/-- A ramp step: the setpoint moves, a step that brings it to 0 may complete a reversal (R112), and the release test is made
(R111, R114). -/
def StirUnit.rampStep (u : StirUnit) : StirUnit × Bool :=
  andThen (StirUnit.tryReversal { u with setpoint := rampToward u.setpoint u.target, rampMs := 0 }) StirUnit.tryRelease

/-- The change of interval phase while a STIR order with INTERVAL is in force (R110). -/
def StirUnit.phaseChange (u : StirUnit) : StirUnit × Bool :=
  match u.order with
  | .stir _ _ (some _) => StirUnit.form { u with phaseOn := !u.phaseOn, phaseTimer := 0, phaseMs := 0 }
  | .stir _ _ none => (u, false)
  | .speedZero => (u, false)
  | .forcedOff => (u, false)

/-- A switch input whose reading has become its state: no filter is running (R108). -/
def switchRead (level : SwitchLevel) : SwitchInput := ⟨level, none, true⟩

/-- A level change of a switch input: a level other than its state starts the 20 ms filter, a level that returns cancels it
(R108). -/
def SwitchInput.levelChange (i : SwitchInput) (level : SwitchLevel) : SwitchInput :=
  { i with filter := if level = i.level then none else some (level, 20) }

/-- The first reading after power-on or RESET pin release becomes the state, without an event (R108). DESIGN CHOICE: a filter
that runs at that moment is dropped, also one toward another level than the reading (assumption log entry 26). -/
def SwitchInput.firstReading (i : SwitchInput) (level : SwitchLevel) : SwitchInput :=
  if i.firstRead then i else switchRead level

/-- A lid change at the unit: the target is re-formed (R108). -/
def StirUnit.lidChanged (u : StirUnit) (level : SwitchLevel) : StirUnit × Bool :=
  StirUnit.form { u with lid := switchRead level }

/-- A confirm switch change at the lock: it confirms an ENGAGING lock, and returns a CONFIRMED lock to ENGAGING with a fresh
500 ms (R113, R114). -/
def StirUnit.confirmChanged (u : StirUnit) (level : SwitchLevel) : StirUnit × Bool :=
  let u := { u with confirm := switchRead level }
  match u.lock, level with
  | .engaging, .closed => StirUnit.form { u with lock := .confirmed, lockTimer := none }
  | .confirmed, .opened => StirUnit.form { u with lock := .engaging, lockTimer := some 500 }
  | .engaging, .opened => (u, false)
  | .confirmed, .closed => (u, false)
  | .released, _ => (u, false)

/-- A hot-bowl reading: every conversion inside the table hands one, and the target is re-formed (R84, R109). -/
def StirUnit.hotReading (u : StirUnit) (t : Int) : StirUnit × Bool := StirUnit.form { u with hot := some t }

/-- A ceiling handed at a window start, which also ends mains hold (R117, R118). -/
def StirUnit.takeCeiling (u : StirUnit) (c : Option Nat) : StirUnit × Bool :=
  StirUnit.form { u with ceiling := c, mainsHold := false }

/-- Mains loss at the unit (R118). -/
def StirUnit.mainsLoss (u : StirUnit) : StirUnit × Bool :=
  StirUnit.form { u with mainsHold := true, ceiling := none, stall := none }

/-- The window demand of the band a demand speed lies in, in 10 W half-cycles (R119). -/
def motorDemand (speed : Nat) : Nat :=
  if speed = 0 then 0 else if speed ≤ 600 then 300 else if speed ≤ 3000 then 500 else if speed ≤ 6000 then 900 else 1600

end Sys2Proof.Machine
end

