-- ==== Sys2Proof/Machine/Power.lean ====
section
/-! DEFINITION. The power arbiter (chapter 6): motor and heater grants, the window start, and zero-cross arrivals. -/

namespace Sys2Proof.Machine

open Sys2Proof

/-! ## Motor grants (R129, R130) -/

/-- The motor grants from a budget: both in full when they fit, else the smaller demand first (motor 1 at equal demands) up
to half the budget, and the other from what is left (R129). -/
def motorGrants (budget d1 d2 : Nat) : PerBowl Nat :=
  if d1 + d2 ≤ budget then ⟨d1, d2⟩
  else if d1 ≤ d2 then
    let g1 := min d1 (budget / 2)
    ⟨g1, min d2 (budget - g1)⟩
  else
    let g2 := min d2 (budget / 2)
    ⟨min d1 (budget - g2), g2⟩

/-- The ceiling of a motor grant: NONE in full, else the top speed of the highest band the grant carries (R130). -/
def ceilingFor (demand grant : Nat) : Option Nat :=
  if demand ≤ grant then none
  else if grant < 300 then some 0
  else if grant < 500 then some 600
  else if grant < 900 then some 3000
  else some 6000

/-! ## Heater grants (R131, R132) -/

/-- What the arbiter reads of a heater: posted half-cycles, and the active stage with its rating (R128). -/
structure HeaterDemand where
  stage : Option Element
  rating : Option Nat
  posted : Nat
  deriving DecidableEq, Repr

/-- A heater's demand in power (R128). -/
def HeaterDemand.power (d : HeaterDemand) : Nat := d.posted * d.rating.getD 0

/-- The half-cycles granted from an amount left: the demand in full where it fits, else as many as fit (R131). -/
def HeaterDemand.serve (d : HeaterDemand) (left : Nat) : Nat :=
  if d.power ≤ left then d.posted else left / d.rating.getD 0

/-- The power a grant costs. -/
def HeaterDemand.cost (d : HeaterDemand) (grant : Nat) : Nat := grant * d.rating.getD 0

/-- The heater served first: the pointer's, but in FIT mode the other when the pointer's does not fit and the other does
(R131, R132). -/
def servedFirst (mode : ArbMode) (pointer : BowlId) (r : Nat) (d : PerBowl HeaterDemand) : BowlId :=
  match mode with
  | .stay => pointer
  | .fit =>
    if r < (d.get pointer).power ∧ (d.get (otherBowl pointer)).power ≤ r then otherBowl pointer else pointer

/-- The heater grants with one heater served first (R131). -/
def heaterGrants (first : BowlId) (r : Nat) (d : PerBowl HeaterDemand) : PerBowl Nat :=
  let g := (d.get first).serve r
  let left := r - (d.get first).cost g
  let other := (d.get (otherBowl first)).serve left
  match first with
  | .one => ⟨g, other⟩
  | .two => ⟨other, g⟩

/-- The round-robin pointer after the heaters are served: FIT moves it always, STAY only when the heater served first was
granted in full (R131, R132). -/
def pointerAfter (mode : ArbMode) (pointer : BowlId) (d g : Nat) : BowlId :=
  match mode with
  | .fit => otherBowl pointer
  | .stay => if g < d then pointer else otherBowl pointer

/-! ## The window start (R127) -/

/-- The motor demands at a window start (R128). -/
def State.motorDemands (s : State) : PerBowl Nat :=
  ⟨motorDemand s.bowls.one.stir.demandSpeed, motorDemand s.bowls.two.stir.demandSpeed⟩

/-- The heater demand of a bowl (R128). -/
def Bowl.heaterDemand (b : Bowl) : HeaterDemand :=
  ⟨b.heat.active, b.heat.active.map b.cal.values.rating, b.heat.demandHalfCycles⟩

/-- The heater demands at a window start (R128). -/
def State.heaterDemands (s : State) : PerBowl HeaterDemand := ⟨s.bowls.one.heaterDemand, s.bowls.two.heaterDemand⟩

/-- The account of a window with these readings (R129 to R132, R138). -/
def accountOf (sequence cap : Nat) (mode : ArbMode) (pointer : BowlId) (dm : PerBowl Nat) (dh : PerBowl HeaterDemand) :
    Account :=
  let budget := cap * 20
  let gm := motorGrants budget dm.one dm.two
  let r := budget - (gm.one + gm.two)
  let first := servedFirst mode pointer r dh
  let gh := heaterGrants first r dh
  let heater (d : HeaterDemand) (g : Nat) : HeaterAccount := ⟨d.stage, d.rating, d.posted, d.power, g, d.cost g⟩
  { sequence := sequence
    cap := cap
    budget := budget
    mode := mode
    pointerBefore := pointer
    pointerAfter := pointerAfter mode pointer (dh.get pointer).posted (gh.get pointer)
    motors := ⟨⟨dm.one, gm.one, ceilingFor dm.one gm.one⟩, ⟨dm.two, gm.two, ceilingFor dm.two gm.two⟩⟩
    remainder := r
    heaters := ⟨heater dh.one gh.one, heater dh.two gh.two⟩
    servedFirst := first
    leftOver := r - (dh.one.cost gh.one + dh.two.cost gh.two)
    motorShort := ⟨decide (gm.one < dm.one), decide (gm.two < dm.two)⟩
    heaterShort := ⟨decide (gh.one < dh.one.posted), decide (gh.two < dh.two.posted)⟩ }

/-- Whether some grant of a bowl fell short (R136). -/
def Account.shortBowl (a : Account) (b : BowlId) : Bool := a.motorShort.get b || a.heaterShort.get b

/-- A bowl's share of a window start: its heating unit takes its grant, its stirring unit its ceiling, and a short grant sets
B (R127). -/
def State.handResults (s : State) (a : Account) (b : BowlId) : State :=
  let x := s.bowl b
  let heat := x.heat.takeGrant x.cal.values.mode (a.heaters.get b).posted (a.heaters.get b).grant
  let stir := x.stir.takeCeiling (a.motors.get b).ceiling
  (((s.setHeat b heat).setStir b stir.1).noteClamp b stir.2).noteShort b (a.shortBowl b)

/-- The account a window start in this state records: the window before it closed, pending settings taken in (R127). -/
def State.nextAccount (s : State) : Account :=
  let x := s.arbiter
  accountOf ((x.sequence + 1) % 65536) (x.pendingCap.getD x.cap) (x.pendingMode.getD x.mode) x.pointer s.motorDemands
    s.heaterDemands

/-- The arbiter after a window start has recorded its account (R127). -/
def Arbiter.record (x : Arbiter) (a : Account) : Arbiter :=
  { x with
    lastEnded := match x.current with
      | some c => some (c, .completed)
      | none => x.lastEnded
    cap := a.cap
    pendingCap := none
    mode := a.mode
    pendingMode := none
    sequence := a.sequence
    pointer := a.pointerAfter
    current := some a }

/-- The window start (R127). -/
def State.windowStart (s : State) : State :=
  let a := s.nextAccount
  let s := { s with arbiter := s.arbiter.record a }
  let s := (s.handResults a .one).handResults a .two
  if a.shortBowl .one || a.shortBowl .two then s.raise .budgetShort else s

/-- The position handed to both heating units, which make their firing decisions (R123). -/
def State.handPosition (s : State) (p : Nat) : State :=
  let s := s.setHeat .one ((s.bowl .one).heat.fire p)
  s.setHeat .two ((s.bowl .two).heat.fire p)

/-! ## Zero-cross arrivals (R123, R125, R126) -/

/-- The gap timer restarted by an arrival (R123, R125). An expiry of it that waits, the timer having run out, is overtaken
(R124). -/
def Arbiter.restartGap (x : Arbiter) : Arbiter :=
  { x with
    gap := some 25
    sinceCross := some 0
    overtaken := x.overtaken || decide (x.gap = some 0) }

/-- A zero-cross while the mains is PRESENT (R123). -/
def State.halfCycle (s : State) : State :=
  let x := s.arbiter.restartGap
  match s.arbiter.position with
  | some p =>
    if p = 19 then ({ s with arbiter := { x with position := some 0 } }.windowStart).handPosition 0
    else { s with arbiter := { x with position := some (p + 1) } }.handPosition (p + 1)
  | none => ({ s with arbiter := { x with position := some 0 } }.windowStart).handPosition 0

/-- The time since the last zero-cross at an arrival: the greater of the time counted and the time the arrival carries, the model's
choice (assumption log entry 8). -/
def Arbiter.spacing (x : Arbiter) (since : Nat) : Nat := max (x.sinceCross.getD 0) since

/-- The restoration count after an arrival while the mains is ABSENT (R125): 7 to 12 ms counts on, any other spacing starts a
new run. -/
def Arbiter.countAfter (x : Arbiter) (since : Nat) : Nat :=
  if x.restoration = 0 then 1
  else if 7000 ≤ x.spacing since ∧ x.spacing since ≤ 12000 then x.restoration + 1
  else 1

/-- A zero-cross while the mains is ABSENT (R125, R126). -/
def State.restorationCross (s : State) (since : Nat) : State :=
  let n := s.arbiter.countAfter since
  let x := s.arbiter.restartGap
  if 10 ≤ n then { s with arbiter := { x with present := true, restoration := 0 } }.raise .mains
  else { s with arbiter := { x with restoration := n } }

/-- A zero-cross arrival. -/
def State.zeroCross (s : State) (since : Nat) : State :=
  if s.arbiter.present then s.halfCycle else s.restorationCross since

/-- The meaning of ZERO_CROSS_ARRIVAL (R123, R125). -/
def execZeroCrossArrival (since : Nat) (s : State) : Host.Outcome State Fault Refusal :=
  whileReleased (fun s => s.zeroCross since) s

/-! ## The cap and the mode (R135) -/

/-- SET_POWER_CAP at the arbiter (R135). -/
def answerSetPowerCap (params : List Byte) (s : State) : Reply :=
  match params with
  | [c1, c0] =>
    let cap := beNat [c1, c0]
    let v := clampNat 50 s.arbiter.rating cap
    if s.autoloading then refuse s .busy
    else ⟨{ s with arbiter := { s.arbiter with pendingCap := some v } }, if v = cap then .accepted else .clamped, u16 v⟩
  | _ => refuse s .badParam

/-- The meaning of SET_POWER_CAP (R135). -/
def execSetPowerCap (x : Xfer) (params : List Byte) (s : State) : Host.Outcome State Fault Refusal :=
  takeRequest 0x40 x params (answerSetPowerCap params) s

/-- SET_ARBITRATION at the arbiter (R135). -/
def answerSetArbitration (params : List Byte) (s : State) : Reply :=
  match params with
  | [pm] =>
    match arbModeOf pm.toNat with
    | none => refuse s .badParam
    | some m => ⟨{ s with arbiter := { s.arbiter with pendingMode := some m, modeByRequest := true } }, .ok, []⟩
  | _ => refuse s .badParam

/-- The meaning of SET_ARBITRATION (R135). -/
def execSetArbitration (x : Xfer) (params : List Byte) (s : State) : Host.Outcome State Fault Refusal :=
  takeRequest 0x41 x params (answerSetArbitration params) s

end Sys2Proof.Machine
end

