-- ==== Sys2Proof/Machine/Weighing.lean ====
section
/-! DEFINITION. The weighing channel (chapter 3): from a raw sample to a mass, disturbance and stability, tare and added
mass, and the decision of a weigh step. -/

namespace Sys2Proof.Machine

open Sys2Proof

/-! ## Filter and mass (R61 to R65) -/

/-- The lower overload value of a raw sample (R61). -/
def overloadLow : Int := -8388608

/-- The upper overload value of a raw sample (R61). -/
def overloadHigh : Int := 8388607

/-- Whether a raw sample is an overload sample (R61). -/
def isOverload (r : Int) : Bool := decide (r = overloadLow) || decide (r = overloadHigh)

/-- The filter accumulator after an in-range sample (R62): loaded while reload is pending, else moved by k / 256 of the
step. -/
def Channel.filtered (c : Channel) (k : Nat) (r : Int) : Int :=
  match c.reloadPending, c.filter with
  | false, some f => f + roundConv ((r * 256 - f) * k) 256
  | _, _ => r * 256

/-- The mass of an accumulator value before its clamp (R63). -/
def rawMass (v : CalValues) (f : Int) : Int := roundConv ((f - v.zero * 256) * v.gain) (2 ^ 28)

/-- The mass limited to −12,000.0 to +12,000.0 g (R63). -/
def clampMass (m : Int) : Int := clampInt (-120000) 120000 m

/-- Whether the speeds seen or the hold-off disturb a conversion (R67). -/
def Channel.isDisturbed (c : Channel) : Bool := decide (0 < c.seen.one) || decide (0 < c.seen.two) || c.holdOff.isSome

/-- The window emptied and S false (R61, R64, R65, R66). -/
def Channel.unsettle (c : Channel) : Channel := { c with window := [], stable := false }

/-- The reload of R65: reload pending, window emptied, S false. -/
def Channel.reload (c : Channel) : Channel := { c.unsettle with reloadPending := true }

/-- A window with one more value, the oldest leaving a window of 16 (R66). -/
def pushWindow (w : List Int) (m : Int) : List Int := (if 16 ≤ w.length then w.drop 1 else w) ++ [m]

/-- The judgment of S: 16 values whose greatest less least is at or below the band (R66). -/
def judgeStable (w : List Int) (band : Nat) : Bool :=
  match w with
  | [] => false
  | a :: rest => decide (w.length = 16) && decide (rest.foldl max a - rest.foldl min a ≤ band)

/-- The window stage of a conversion with a mass (R66). -/
def Channel.windowStage (c : Channel) (band : Nat) (disturbed : Bool) : Channel :=
  if disturbed then c.unsettle
  else
    let w := pushWindow c.window c.mass
    { c with window := w, stable := judgeStable w band }

/-! ## Tare and decision (R70 to R75) -/

/-- The added mass of the current mass over the tare point that stands (R70). -/
def Channel.massOverTare (c : Channel) : Int := c.mass - c.tarePoint

/-- The added mass formed at a conversion with a mass, for the decision and for readout until the next one forms it (R70,
R77). -/
def Channel.formAdded (c : Channel) : Channel := { c with added := c.massOverTare }

/-- The capture of a pending tare at a conversion that leaves S true (R72). -/
def Channel.captureTare (c : Channel) : Channel :=
  match c.part with
  | some a =>
    if c.stable ∧ a.tare = .pending then { c with tarePoint := c.mass, part := some { a with tare := .captured } } else c
  | none => c

/-- What a channel reports to its step engine beside S: a new value of M, and whether O is set (R74). -/
structure MassReport where
  m : Option Bool
  o : Bool
  deriving DecidableEq, Repr

/-- No M or O report. -/
def MassReport.silent : MassReport := ⟨none, false⟩

/-- The decision of R74, made with an armed part, its tare captured and S true: low clears a reported M; in band sets M;
over sets O and clears a reported M. A decision equal to the last one reported sends nothing. -/
def Channel.makeDecision (c : Channel) : Channel × MassReport :=
  match c.part with
  | some a =>
    if c.stable ∧ a.tare = .captured then
      let x := c.massOverTare
      if x < a.target - a.tolerance then
        if c.mReported then ({ c with decision := .undecided, mReported := false }, ⟨some false, false⟩)
        else (c, .silent)
      else if x ≤ a.target + a.tolerance then
        if c.decision = .inBand then (c, .silent)
        else ({ c with decision := .inBand, mReported := true }, ⟨some true, false⟩)
      else if c.decision = .over then (c, .silent)
      else
        ({ c with decision := .over, mReported := false }, ⟨if c.mReported then some false else none, true⟩)
    else (c, .silent)
  | none => (c, .silent)

/-! ## A conversion at the channel (R60) -/

/-- A conversion of a bowl that is not CALIBRATING: the overload test, the filter, the mass, the disturbance judgment, the
window, the tare capture, the added mass and the decision, in order. Answers the channel, whether the mass was clamped (R63), and the
report of M and O. -/
def Channel.convert (c : Channel) (v : CalValues) (r : Int) : Channel × Bool × MassReport :=
  let c := { c with disturbed := c.isDisturbed }
  if isOverload r then ({ c.unsettle with overload := true }, false, .silent)
  else
    let f := c.filtered v.k r
    let c := { c with overload := false, filter := some f, reloadPending := false }
    if v.gain = 0 then ({ c.unsettle with massAvailable := false, mass := 0 }, false, .silent)
    else
      let raw := rawMass v f
      let c := { c with massAvailable := true, mass := clampMass raw }
      let d := (c.windowStage v.band c.disturbed).captureTare.formAdded.makeDecision
      (d.1, decide (clampMass raw ≠ raw), d.2)

/-- A conversion while the bowl is CALIBRATING: only the disturbance judgment is made for it (R80). -/
def Channel.judgeOnly (c : Channel) : Channel := { c with disturbed := c.isDisturbed }

/-! ## Arming and withdrawal (R71, R73) -/

/-- Arming with a step's weigh part (R71). Answers whether the target was clamped. -/
def Channel.arm (c : Channel) (w : WeighPart) : Channel × Bool :=
  ({ c with
      part := some ⟨(min w.target 5000 : Nat) * 10, w.tolerance * 10, if w.tareAtEntry then .pending else .captured⟩
      decision := .undecided
      mReported := false },
    decide (5000 < w.target))

/-- Withdrawal of the weigh part (R73). -/
def Channel.withdraw (c : Channel) : Channel := { c with part := none, decision := .undecided, mReported := false }

/-- A TARE taken: the tare point becomes the current mass, and a pending tare is satisfied. The added mass is counted from the
new tare point from the next conversion, which forms it (R70, R77). -/
def Channel.takeTare (c : Channel) : Channel :=
  { c with tarePoint := c.mass, part := c.part.map (fun a => { a with tare := .captured }) }

/-! ## The speeds seen and the hold-off (R67, R68) -/

/-- Whether both speeds seen are 0. -/
def PerBowl.still (p : PerBowl Nat) : Bool := decide (p.one = 0) && decide (p.two = 0)

/-- A tacho report of bowl `b` (R67, R68): the speed seen is replaced; both speeds coming to 0 start the hold-off with
1.5 s; a speed above 0 cancels it. -/
def Channel.seeSpeed (c : Channel) (b : BowlId) (speed : Nat) : Channel :=
  let seen := c.seen.set b speed
  { c with
    seen := seen
    holdOff := if seen.still then (if c.seen.still then c.holdOff else some 1500) else none }

/-- The hold-off timer's expiry (R68). -/
def Channel.holdOffExpiry (c : Channel) : Channel := { c with holdOff := none }

/-- The channel at the start of a calibration: the window is empty and S false while it lasts (R80). -/
def Channel.underCalibration (c : Channel) : Channel := c.unsettle

end Sys2Proof.Machine
end

