-- ==== Sys2Proof/Machine/Calibration.lean ====
section
/-! DEFINITION. Scale calibration and the stored image (chapter 7): the image's layout, autoload, the zero sweep, the
capture, the end of a calibration, and saving. -/

namespace Sys2Proof.Machine

open Sys2Proof

/-! ## The image (R142, R143) -/

/-- The 7-bit I2C device address of the EEPROM (R142). -/
def eepromAddress : BitVec 7 := 0x50

/-- The 14 bytes of a bowl's block (R142). -/
def CalValues.block (v : CalValues) : List Byte :=
  u8 v.trim ++ s24 v.zero ++ u24 v.gain ++ u8 (v.k - 1) ++ u8 v.band ++ u8 v.kp ++ u8 v.ki ++ u8 v.mainRating ++
    u8 v.keepRating ++ u8 v.mode.code

/-- Bytes as a number without the modulus of a byte sum. -/
def natSum (bytes : List Byte) : Nat := bytes.foldl (fun acc b => acc + b.toNat) 0

/-- A list of bytes as an image of 128. -/
def imageOfBytes (bytes : List Byte) : Vector Byte 128 := Vector.ofFn fun i => bytes.getD i.val 0

/-- The image built from the values of both bowls, the circuit rating, the default cap and the arbitration mode (R142). -/
def buildImage (one two : CalValues) (rating cap : Nat) (mode : ArbMode) : Vector Byte 128 :=
  let body :=
    [0x5A, 0xC2] ++ u8 1 ++ u8 0 ++ one.block ++ two.block ++ u16 rating ++ u16 cap ++ u8 mode.code ++
      List.replicate 89 0
  imageOfBytes (body ++ u16 (natSum body % 65536))

/-- Byte `i` of an image. -/
def imageByte (image : Vector Byte 128) (i : Nat) : Nat := (image.toList.getD i 0).toNat

/-- Two bytes of an image, most significant first. -/
def imagePair (image : Vector Byte 128) (i : Nat) : Nat := 256 * imageByte image i + imageByte image (i + 1)

/-- Three bytes of an image, most significant first. -/
def imageTriple (image : Vector Byte 128) (i : Nat) : Nat := 65536 * imageByte image i + imagePair image (i + 1)

/-- Whether a bowl block passes R143: band 1 to 255, ratings 10 to 200, stage mode 0 to 2. -/
def blockGood (image : Vector Byte 128) (b : Nat) : Bool :=
  decide (1 ≤ imageByte image (b + 8)) && decide (10 ≤ imageByte image (b + 11)) && decide (imageByte image (b + 11) ≤ 200) &&
    decide (10 ≤ imageByte image (b + 12)) && decide (imageByte image (b + 12) ≤ 200) &&
    decide (imageByte image (b + 13) ≤ 2)

/-- Whether an image is good (R143). -/
def imageGood (image : Vector Byte 128) : Bool :=
  decide (imageByte image 0 = 0x5A) && decide (imageByte image 1 = 0xC2) && decide (imageByte image 2 = 1) &&
    decide (imagePair image 126 = natSum (image.toList.take 126) % 65536) && blockGood image 4 && blockGood image 18 &&
    decide (50 ≤ imagePair image 32) && decide (imagePair image 32 ≤ 360) && decide (imageByte image 36 ≤ 1)

/-- The values of a bowl block (R142). -/
def blockValues (image : Vector Byte 128) (b : Nat) : CalValues where
  trim := imageByte image b
  zero := signedOf 24 (imageTriple image (b + 1))
  gain := imageTriple image (b + 4)
  k := imageByte image (b + 7) + 1
  band := imageByte image (b + 8)
  kp := imageByte image (b + 9)
  ki := imageByte image (b + 10)
  mainRating := imageByte image (b + 11)
  keepRating := imageByte image (b + 12)
  mode := (stageModeOf (imageByte image (b + 13))).getD .auto

/-! ## Autoload (R144, R139) -/

/-- What the arbiter takes from a loaded image: circuit rating, pending cap clamped to it, and the mode unless a request set
one (R139). -/
def Arbiter.takeImage (x : Arbiter) (image : Vector Byte 128) : Arbiter :=
  let rating := imagePair image 32
  { x with
    rating := rating
    pendingCap := some (clampNat 50 rating (imagePair image 34))
    pendingMode := if x.modeByRequest then x.pendingMode else some ((arbModeOf (imageByte image 36)).getD .fit) }

/-- A bowl that takes its block of a loaded image, its channel reloading (R65, R144). -/
def Bowl.takeBlock (x : Bowl) (v : CalValues) : Bowl :=
  { x with cal := { x.cal with values := v }, weigh := x.weigh.reload }

/-- A good image's values taken in force (R144). -/
def State.loadImage (s : State) (image : Vector Byte 128) : State :=
  { s with
    bowls := ⟨s.bowls.one.takeBlock (blockValues image 4), s.bowls.two.takeBlock (blockValues image 18)⟩
    arbiter := s.arbiter.takeImage image }

/-- The end of autoload as LOADED, ABSENT or BAD (R144). -/
def State.endAutoload (s : State) (r : AutoloadRead) : State :=
  match s.image.autoload with
  | .inFlight =>
    match r with
    | .noAck => { s with image := { s.image with autoload := .absent } }
    | .image bytes =>
      if imageGood bytes then { s.loadImage bytes with image := { s.image with autoload := .loaded } }
      else { s with image := { s.image with autoload := .bad } }
  | .loaded => s
  | .absent => s
  | .bad => s

/-- The meaning of AUTOLOAD_COMPLETE (R144). -/
def execAutoloadComplete (r : AutoloadRead) (s : State) : Host.Outcome State Fault Refusal :=
  whileReleased (fun s => s.endAutoload r) s

/-! ## Starting a calibration (R146, R150) -/

/-- The bowl enters CALIBRATING: no heat, speed 0, its conversions handed to the calibration block (R58, R80). -/
def State.enterCalibrating (s : State) (b : BowlId) (c : BowlCal) : State :=
  let x := s.bowl b
  let stir := x.stir.handZero
  (s.setBowl b
    { x with
      run := { x.run with state := .calibrating }
      heat := x.heat.handNoHeat false
      stir := stir.1
      weigh := x.weigh.underCalibration
      cal := c }).noteClamp b stir.2

/-- The tests CALIBRATE_ZERO and CALIBRATE_SPAN share after their parameters (R146, R150). -/
def State.calibrationRefusal (s : State) (b : BowlId) : Option Status :=
  if s.autoloading then some .busy
  else if (s.bowl b).run.state ≠ .idle then some .wrongState
  else if (s.bowl b).heat.configSettle.isSome then some .settling
  else none

/-- CALIBRATE_ZERO at its owners (R146). -/
def answerCalibrateZero (params : List Byte) (s : State) : Reply :=
  match params with
  | [pb] =>
    match bowlOf pb with
    | none => refuse s .badParam
    | some b =>
      match s.calibrationRefusal b with
      | some st => refuse s st
      | none =>
        let c := (s.bowl b).cal
        let v := c.values
        ⟨s.enterCalibrating b
          { c with
            values := { v with trim := 0 }
            context := some ⟨.zero, .sweep 0, 0, none, v.trim, v.zero, v.gain⟩ }, .accepted, []⟩
  | _ => refuse s .badParam

/-- The meaning of CALIBRATE_ZERO (R146). -/
def execCalibrateZero (x : Xfer) (params : List Byte) (s : State) : Host.Outcome State Fault Refusal :=
  takeRequest 0x30 x params (answerCalibrateZero params) s

/-- CALIBRATE_SPAN at its owners (R150). -/
def answerCalibrateSpan (params : List Byte) (s : State) : Reply :=
  match params with
  | [pb, r1, r0] =>
    let reference := beNat [r1, r0]
    match bowlOf pb with
    | none => refuse s .badParam
    | some b =>
      if reference < 100 ∨ 50000 < reference then refuse s .badParam
      else
        match s.calibrationRefusal b with
        | some st => refuse s st
        | none =>
          let c := (s.bowl b).cal
          let v := c.values
          if c.zeroValid then
            ⟨s.enterCalibrating b
              { c with context := some ⟨.span reference, .capture 1 0, 0, none, v.trim, v.zero, v.gain⟩ }, .accepted, []⟩
          else refuse s .uncalibrated
  | _ => refuse s .badParam

/-- The meaning of CALIBRATE_SPAN (R150). -/
def execCalibrateSpan (x : Xfer) (params : List Byte) (s : State) : Host.Outcome State Fault Refusal :=
  takeRequest 0x31 x params (answerCalibrateSpan params) s

/-! ## Ending a calibration (R151) -/

/-- The calibration state after a calibration ends (R151): on any outcome but SUCCESS the saved trim, Z and G return. -/
def BowlCal.finish (c : BowlCal) (outcome : CalOutcome) : BowlCal :=
  let values :=
    match c.context, outcome with
    | _, .success => c.values
    | some x, _ => { c.values with trim := x.savedTrim, zero := x.savedZero, gain := x.savedGain }
    | none, _ => c.values
  { c with values := values, context := none, lastOutcome := some outcome }

/-- The end of a calibration but for the bowl state: values, outcome, channel reload, and CAL_DONE noticed (R151). -/
def State.closeCalibration (s : State) (b : BowlId) (outcome : CalOutcome) : State :=
  let x := s.bowl b
  (s.setBowl b { x with cal := x.cal.finish outcome, weigh := x.weigh.reload }).raise (.ofBowl b .calDone)

/-- The end of a calibration: the bowl becomes IDLE (R151). -/
def State.endCalibration (s : State) (b : BowlId) (outcome : CalOutcome) : State :=
  let s := s.closeCalibration b outcome
  s.setRun b { (s.bowl b).run with state := .idle }

/-- ABORT_CALIBRATION for a bowl (R152). -/
def State.abortCalibration (s : State) (b : BowlId) : Reply :=
  if (s.bowl b).run.state = .calibrating then ⟨s.endCalibration b .aborted, .ok, []⟩ else refuse s .wrongState

/-- ABORT_CALIBRATION at its owner (R152). -/
def answerAbortCalibration (params : List Byte) (s : State) : Reply :=
  match params with
  | [pb] =>
    match bowlOf pb with
    | none => refuse s .badParam
    | some b => s.abortCalibration b
  | _ => refuse s .badParam

/-- The meaning of ABORT_CALIBRATION (R152). -/
def execAbortCalibration (x : Xfer) (params : List Byte) (s : State) : Host.Outcome State Fault Refusal :=
  takeRequest 0x32 x params (answerAbortCalibration params) s

/-! ## Conversions under calibration (R147 to R150) -/

/-- What a conversion does to a calibration: it goes on with new values and context, or ends with an outcome. -/
inductive CalStep
  | goOn (c : BowlCal)
  | finish (c : BowlCal) (outcome : CalOutcome)
  deriving DecidableEq, Repr

/-- A conversion in phase SWEEP (R147): every third one is the reading for the trim under test. -/
def sweepStep (c : BowlCal) (x : CalContext) (t : Nat) (r : Int) : CalStep :=
  if x.count + 1 < 3 then .goOn { c with context := some { x with count := x.count + 1 } }
  else if r = overloadHigh then .finish c .trimRange
  else if r < 0 then
    if t < 255 then
      .goOn
        { c with
          values := { c.values with trim := t + 1 }
          context := some { x with phase := .sweep (t + 1), count := 0 } }
    else .finish c .trimRange
  else if t = 0 then .finish c .trimRange
  else .goOn { c with context := some { x with phase := .capture 1 0, count := 0, lockedTrim := some t } }

/-- The result of a complete capture: ZERO sets Z and the zero-valid marker (R149), SPAN computes G or fails (R150). -/
def captureResult (c : BowlCal) (x : CalContext) (sum : Int) : CalStep :=
  let average := roundConv sum 32
  match x.kind with
  | .zero => .finish { c with values := { c.values with zero := average }, zeroValid := true } .success
  | .span reference =>
    let n := average - c.values.zero
    if n < 10000 then .finish c .spanTooSmall
    else .finish { c with values := { c.values with gain := (roundConv (reference * 2 ^ 20) n.toNat).toNat } } .success

/-- A conversion in phase CAPTURE (R148). A conversion that is both an overload sample and disturbed meets two rows of the table;
the model takes the overload row, which stands first (assumption log entry 32, DESIGN CHOICE). -/
def captureStep (c : BowlCal) (x : CalContext) (attempt : Nat) (sum r : Int) (disturbed : Bool) : CalStep :=
  if isOverload r then .finish c .overload
  else if disturbed then
    if attempt < 4 then .goOn { c with context := some { x with phase := .capture (attempt + 1) 0, count := 0 } }
    else .finish c .disturbed
  else if x.count + 1 < 32 then
    .goOn { c with context := some { x with phase := .capture attempt (sum + r), count := x.count + 1 } }
  else captureResult c x (sum + r)

/-- A conversion handed to the calibration block. -/
def BowlCal.step (c : BowlCal) (r : Int) (disturbed : Bool) : CalStep :=
  match c.context with
  | none => .goOn c
  | some x =>
    match x.phase with
    | .sweep t => sweepStep c x t r
    | .capture attempt sum => captureStep c x attempt sum r disturbed

/-- A conversion of a CALIBRATING bowl (R80): its disturbance is judged, S is reported false, and the block acts. -/
def State.calibrationConversion (s : State) (b : BowlId) (r : Int) : State :=
  let c := (s.bowl b).weigh.judgeOnly
  let s := (s.setWeigh b c).reportStable b false
  match (s.bowl b).cal.step r c.disturbed with
  | .goOn cal => s.setCal b cal
  | .finish cal outcome => (s.setCal b cal).endCalibration b outcome

/-! ## Saving the image (R153, R154) -/

/-- The values of a bowl a snapshot holds: a calibrating bowl's saved trim, Z and G in place of those under calibration
(R153). -/
def BowlCal.savedValues (c : BowlCal) : CalValues :=
  match c.context with
  | some x => { c.values with trim := x.savedTrim, zero := x.savedZero, gain := x.savedGain }
  | none => c.values

/-- The image snapshot of a save taken now (R139, R153). -/
def State.snapshot (s : State) : Vector Byte 128 :=
  buildImage s.bowls.one.cal.savedValues s.bowls.two.cal.savedValues s.arbiter.rating s.arbiter.cap s.arbiter.mode

/-- SAVE_CALIBRATION at its owner (R153). -/
def answerSaveCalibration (params : List Byte) (s : State) : Reply :=
  match params with
  | [] =>
    if s.autoloading ∨ s.image.save.isSome then refuse s .busy
    else ⟨{ s with image := { s.image with save := some ⟨s.snapshot, 0, 10⟩ } }, .accepted, []⟩
  | _ => refuse s .badParam

/-- The meaning of SAVE_CALIBRATION (R153). -/
def execSaveCalibration (x : Xfer) (params : List Byte) (s : State) : Host.Outcome State Fault Refusal :=
  takeRequest 0x33 x params (answerSaveCalibration params) s

/-- What the part sends the EEPROM for one access: the device address, the one-byte word address, and the bytes it writes. -/
structure EepromAccess where
  device : BitVec 7
  word : Byte
  writes : List Byte
  deriving DecidableEq, Repr

/-- The sequential read of an autoload starts at word address 0 (R144). -/
def autoloadAccess : EepromAccess := ⟨eepromAddress, 0, []⟩

/-- The page write of a save in flight: page n's 16 bytes at word address 16 × n (R154). -/
def SaveJob.pageAccess (j : SaveJob) : EepromAccess :=
  ⟨eepromAddress, BitVec.ofNat 8 (16 * j.page), (j.image.toList.drop (16 * j.page)).take 16⟩

/-- The end of a save: IDLE with its outcome, STORE_DONE noticed (R154). -/
def State.endSave (s : State) (o : SaveOutcome) : State :=
  { s with image := { s.image with save := none, lastSave := some o } }.raise .storeDone

/-- The end of a page write (R154). -/
def State.pageDone (s : State) (acked : Bool) : State :=
  match s.image.save with
  | none => s
  | some j =>
    if acked then
      if j.page < 7 then { s with image := { s.image with save := some { j with page := j.page + 1, left := 10 } } }
      else s.endSave .ok
    else s.endSave .writeFailed

/-- The meaning of EEPROM_PAGE_WRITE_DONE (R154). -/
def execEepromPageWriteDone (acked : Bool) (s : State) : Host.Outcome State Fault Refusal :=
  whileReleased (fun s => s.pageDone acked) s

/-- The 10 ms of a page passing without acknowledgement (R154). -/
def State.pageTimeout (s : State) : State :=
  match s.image.save with
  | none => s
  | some _ => s.endSave .writeFailed

/-- The meaning of EEPROM_PAGE_TIMEOUT (R154). -/
def execEepromPageTimeout (s : State) : Host.Outcome State Fault Refusal := whileReleased State.pageTimeout s

end Sys2Proof.Machine
end

