-- ==== Sys2Proof/Machine/Store.lean ====
section
/-! DEFINITION. The recipe store (chapter 1): extents, the recipe table, loading and sealing, and what the step engines read
of a READY recipe. -/

namespace Sys2Proof.Machine

open Sys2Proof

/-! ## Extents (R8 to R10) -/

/-- First-fit allocation (R9): the start of the first free extent long enough, and the list after it. -/
def firstFit (free : List Extent) (n : Nat) : Option (Nat × List Extent) :=
  match free with
  | [] => none
  | e :: rest =>
    if e.length = n then some (e.start, rest)
    else if n < e.length then some (e.start, ⟨e.start + n, e.length - n⟩ :: rest)
    else (firstFit rest n).map (fun r => (r.1, e :: r.2))

/-- An extent put before a list, merged with the first entry when that starts at its end (R10). -/
def joinFront (e : Extent) (rest : List Extent) : List Extent :=
  match rest with
  | [] => [e]
  | f :: fs => if e.start + e.length = f.start then ⟨e.start, e.length + f.length⟩ :: fs else e :: f :: fs

/-- The return of an extent: inserted by its start address and merged with both neighbours (R10). -/
def returnExtent (free : List Extent) (e : Extent) : List Extent :=
  match free with
  | [] => [e]
  | f :: fs => if e.start < f.start then joinFront e (f :: fs) else joinFront f (returnExtent fs e)

/-! ## The recipe table (R11) -/

/-- The entry of a slot; slots from 8 on do not exist and read as FREE. -/
def Store.entry (st : Store) (slot : Nat) : Entry := st.table.toList.getD slot .free

/-- The store with the entry of a slot replaced. -/
def Store.setEntry (st : Store) (slot : Nat) (e : Entry) : Store := { st with table := st.table.setIfInBounds slot e }

/-- The lowest FREE entry (R14). -/
def Store.lowestFree (st : Store) : Option Nat := (List.range 8).find? (fun i => decide (st.entry i = .free))

/-- An entry that becomes FREE, its extent returned with merging (R21, R22). -/
def Store.freeEntry (st : Store) (slot start length : Nat) : Store :=
  { st.setEntry slot .free with free := returnExtent st.free ⟨start, length⟩ }

/-- `s` with the recipe store replaced. -/
def State.setStore (s : State) (st : Store) : State := { s with store := st }

/-- An index added to a written set, which is kept in rising order. -/
def addIndex (written : List Nat) (i : Nat) : List Nat :=
  match written with
  | [] => [i]
  | j :: rest => if i < j then i :: j :: rest else if i = j then j :: rest else j :: addIndex rest i

/-! ## Loop matching (R17) -/

/-- The walk of R17: the unmatched opens, most recent first; the matched pairs; the indices with a LOOP_NEST fault. -/
structure LoopWalk where
  opens : List Nat
  loops : List (Nat × Nat)
  faults : List Nat
  deriving DecidableEq, Repr

/-- A loop open at index `i`: appended, a fault when it makes more than 4 unmatched (R17, R19). -/
def LoopWalk.takeOpen (w : LoopWalk) (i : Nat) : LoopWalk :=
  { w with opens := i :: w.opens, faults := if 4 < w.opens.length + 1 then i :: w.faults else w.faults }

/-- A loop close at index `i`: paired with the most recent unmatched open, a fault without one (R17, R19). -/
def LoopWalk.takeClose (w : LoopWalk) (i : Nat) : LoopWalk :=
  match w.opens with
  | [] => { w with faults := i :: w.faults }
  | o :: rest => { w with opens := rest, loops := (o, i) :: w.loops }

/-- The walk at one index: an open is handled before a close (R17). -/
def LoopWalk.take (w : LoopWalk) (i : Nat) (st : Step) : LoopWalk :=
  let w := if st.loopOpen.isSome then w.takeOpen i else w
  if st.loopClose then w.takeClose i else w

/-- The walk over the steps from index `i` on. -/
def walkLoops (steps : List Step) (i : Nat) (w : LoopWalk) : LoopWalk :=
  match steps with
  | [] => w
  | st :: rest => walkLoops rest (i + 1) (w.take i st)

/-- The walk over a whole recipe; an open still unmatched at its end is a fault (R19). -/
def loopWalk (steps : List Step) : LoopWalk :=
  let w := walkLoops steps 0 ⟨[], [], []⟩
  { w with faults := w.opens ++ w.faults }

/-- Whether a loop's range, open to close inclusive, contains an index. -/
def inRange (l : Nat × Nat) (i : Nat) : Bool := decide (l.1 ≤ i) && decide (i ≤ l.2)

/-- The nesting depth of an index: the number of loops whose range contains it (R17). -/
def depthOf (loops : List (Nat × Nat)) (i : Nat) : Nat := (loops.filter (fun l => inRange l i)).length

/-- The close index matched to a loop open (R17). -/
def closeOf (loops : List (Nat × Nat)) (i : Nat) : Option Nat := (loops.find? (fun l => decide (l.1 = i))).map Prod.snd

/-! ## Seal validation (R18 to R20) -/

/-- Whether a trigger names an absent part (R18). -/
def triggerWithoutPart (st : Step) : Bool :=
  (st.triggers.time && st.duration.isNone) || (st.triggers.temp && st.heat.isNone) ||
    (st.triggers.mass && st.weigh.isNone) || (st.triggers.prompt && st.prompt.isNone)

/-- Whether the branch of index `i` is faulty: beyond the recipe, or into the body of a loop it is not in (R19). -/
def badBranch (loops : List (Nat × Nat)) (length i : Nat) (st : Step) : Bool :=
  match st.flow with
  | .branch _ _ t =>
    decide (length ≤ t) || loops.any (fun l => inRange l t && decide (l.1 ≠ t) && !inRange l i)
  | _ => false

/-- Whether a step continues to the next index: NEXT or BRANCH (R18). -/
def continues (st : Step) : Bool :=
  match st.flow with
  | .next => true
  | .branch _ _ _ => true
  | .finish => false
  | .hold _ _ => false

/-- The first fault of index `i`, in the order of R20. -/
def faultAt (written : List Nat) (w : LoopWalk) (length i : Nat) (st : Step) : Option SealReason :=
  if i ∉ written then some .unwritten
  else if st.breakTest.isSome ∧ st.loopClose = false then some .breakWithoutClose
  else if triggerWithoutPart st then some .triggerPart
  else if i ∈ w.faults then some .loopNest
  else if badBranch w.loops length i st then some .branchTarget
  else if i + 1 = length ∧ continues st then some .fallsOff
  else none

/-- The lowest index from `i` on with a fault, and its reason (R20). -/
def firstFault (written : List Nat) (w : LoopWalk) (length : Nat) (steps : List Step) (i : Nat) : Option SealFault :=
  match steps with
  | [] => none
  | st :: rest =>
    match faultAt written w length i st with
    | some r => some ⟨i, r⟩
    | none => firstFault written w length rest (i + 1)

/-- Seal validation of a recipe's steps (R17 to R20). -/
def validate (written : List Nat) (steps : List Step) : Option SealFault :=
  firstFault written (loopWalk steps) steps.length steps 0

/-- Reason codes (R20). -/
def SealReason.code : SealReason → Nat
  | .unwritten => 1
  | .triggerPart => 2
  | .loopNest => 3
  | .branchTarget => 4
  | .fallsOff => 5
  | .breakWithoutClose => 6

/-- The step at address `a`, decoded. -/
def State.stepAt (s : State) (a : Nat) : Step := Step.ofRecord (s.recordAt a)

/-- The steps a seal validates: an index not written is a blank record (R17). -/
def State.loadingSteps (s : State) (start length : Nat) (written : List Nat) : List Step :=
  (List.range length).map (fun i => if i ∈ written then s.stepAt (start + i) else .blank)

/-- The steps of a READY recipe (R25). -/
def State.readySteps (s : State) (start length : Nat) : List Step := (List.range length).map (fun i => s.stepAt (start + i))

/-- The record the store delivers for index `i` of a READY slot, with the matched close of a loop open (R25). -/
def State.deliver (s : State) (slot i : Nat) : Option InForce :=
  match s.store.entry slot with
  | .ready _ start length _ _ =>
    let r := s.recordAt (start + i)
    let close :=
      if (Step.ofRecord r).loopOpen.isSome then closeOf (loopWalk (s.readySteps start length)).loops i else none
    some ⟨r, close⟩
  | .loading _ _ _ _ _ _ => none
  | .free => none

/-- A slot's user set with one bowl's membership changed (R13). -/
def State.setUser (s : State) (slot : Nat) (b : BowlId) (member : Bool) : State :=
  match s.store.entry slot with
  | .ready id start length users weighs =>
    s.setStore (s.store.setEntry slot (.ready id start length (users.set b member) weighs))
  | .loading _ _ _ _ _ _ => s
  | .free => s

/-! ## The requests of the store -/

/-- OPEN_RECIPE at the store (R14). -/
def answerOpenRecipe (port : PortId) (params : List Byte) (s : State) : Reply :=
  match params with
  | [i1, i0, pl] =>
    let n := pl.toNat
    if n < 1 ∨ 128 < n then refuse s .badParam
    else
      match s.store.lowestFree, firstFit s.store.free n with
      | none, _ => refuse s .noSlot
      | some _, none => refuse s .noSpace
      | some slot, some (start, free) =>
        ⟨s.setStore { s.store.setEntry slot (.loading (beNat [i1, i0]) port start n [] none) with free := free }, .ok,
          u8 slot ++ u8 start⟩
  | _ => refuse s .badParam

/-- The meaning of OPEN_RECIPE (R14). -/
def execOpenRecipe (x : Xfer) (params : List Byte) (s : State) : Host.Outcome State Fault Refusal :=
  takeRequest 0x10 x params (answerOpenRecipe x.port params) s

/-- WRITE_STEP at the store (R15). -/
def answerWriteStep (port : PortId) (params : List Byte) (s : State) : Reply :=
  match params with
  | ps :: pi :: bytes =>
    let slot := ps.toNat
    let i := pi.toNat
    let record := recordOfBytes bytes
    if bytes.length ≠ 22 ∨ 8 ≤ slot then refuse s .badParam
    else
      match s.store.entry slot with
      | .loading id owner start length written fault =>
        if owner ≠ port then refuse s .notOwner
        else if length ≤ i then refuse s .badParam
        else if recordOk record then
          let written := addIndex written i
          let st := s.store.setEntry slot (.loading id owner start length written fault)
          ⟨s.setStore { st with mem := StepMemory.write st.mem (start + i) record }, .ok, u8 written.length⟩
        else refuse s .badParam
      | .ready _ _ _ _ _ => refuse s .wrongState
      | .free => refuse s .wrongState
  | _ => refuse s .badParam

/-- The meaning of WRITE_STEP (R15). -/
def execWriteStep (x : Xfer) (params : List Byte) (s : State) : Host.Outcome State Fault Refusal :=
  takeRequest 0x11 x params (answerWriteStep x.port params) s

/-- SEAL_RECIPE at the store (R16). The spec gives the two results of INVALID_RECIPE no sizes: they are sent in one byte each, the
model's choice (assumption log entry 35). -/
def answerSealRecipe (port : PortId) (params : List Byte) (s : State) : Reply :=
  match params with
  | [ps] =>
    let slot := ps.toNat
    if 8 ≤ slot then refuse s .badParam
    else
      match s.store.entry slot with
      | .loading id owner start length written _ =>
        if owner ≠ port then refuse s .notOwner
        else
          let steps := s.loadingSteps start length written
          match validate written steps with
          | none =>
            let weighs := steps.any (fun st => st.weigh.isSome)
            ⟨s.setStore (s.store.setEntry slot (.ready id start length ⟨false, false⟩ weighs)), .ok, u8 (bit weighs)⟩
          | some f =>
            ⟨s.setStore (s.store.setEntry slot (.loading id owner start length written (some f))), .invalidRecipe,
              u8 f.index ++ u8 f.reason.code⟩
      | .ready _ _ _ _ _ => refuse s .wrongState
      | .free => refuse s .wrongState
  | _ => refuse s .badParam

/-- The meaning of SEAL_RECIPE (R16). -/
def execSealRecipe (x : Xfer) (params : List Byte) (s : State) : Host.Outcome State Fault Refusal :=
  takeRequest 0x12 x params (answerSealRecipe x.port params) s

/-- DISCARD_RECIPE at the store (R21). -/
def answerDiscardRecipe (port : PortId) (params : List Byte) (s : State) : Reply :=
  match params with
  | [ps] =>
    let slot := ps.toNat
    if 8 ≤ slot then refuse s .badParam
    else
      match s.store.entry slot with
      | .loading _ owner start length _ _ =>
        if owner ≠ port then refuse s .notOwner else ⟨s.setStore (s.store.freeEntry slot start length), .ok, []⟩
      | .ready _ _ _ _ _ => refuse s .wrongState
      | .free => refuse s .wrongState
  | _ => refuse s .badParam

/-- The meaning of DISCARD_RECIPE (R21). -/
def execDiscardRecipe (x : Xfer) (params : List Byte) (s : State) : Host.Outcome State Fault Refusal :=
  takeRequest 0x13 x params (answerDiscardRecipe x.port params) s

/-- UNLOAD_RECIPE at the store (R22). -/
def answerUnloadRecipe (params : List Byte) (s : State) : Reply :=
  match params with
  | [ps] =>
    let slot := ps.toNat
    if 8 ≤ slot then refuse s .badParam
    else
      match s.store.entry slot with
      | .ready _ start length users _ =>
        if users.one ∨ users.two then refuse s .inUse
        else ⟨s.setStore (s.store.freeEntry slot start length), .ok, []⟩
      | .loading _ _ _ _ _ _ => refuse s .wrongState
      | .free => refuse s .wrongState
  | _ => refuse s .badParam

/-- The meaning of UNLOAD_RECIPE (R22). -/
def execUnloadRecipe (x : Xfer) (params : List Byte) (s : State) : Host.Outcome State Fault Refusal :=
  takeRequest 0x14 x params (answerUnloadRecipe params) s

/-- A slot discarded if it is LOADING and owned by the port (R23). -/
def Store.discardOwned (st : Store) (port : PortId) (slot : Nat) : Store :=
  match st.entry slot with
  | .loading _ owner start length _ _ => if owner = port then st.freeEntry slot start length else st
  | .ready _ _ _ _ _ => st
  | .free => st

/-- Every LOADING recipe of a port discarded, one by one (R23). -/
def Store.discardAll (st : Store) (port : PortId) : Store :=
  (List.range 8).foldl (fun st slot => st.discardOwned port slot) st

/-! ## LIST_RECIPES (R24) -/

/-- The lowest index not in a written set, or 255 when every index is written (R24). -/
def lowestUnwritten (written : List Nat) (length : Nat) : Nat :=
  ((List.range length).find? (fun i => decide (i ∉ written))).getD 255

/-- The bit of a port: 0 port A, 1 port B. -/
def portBit : PortId → Nat
  | .portA => 0
  | .portB => 1

/-- The 9-byte record of an entry; fields not held are 0 (R24). -/
def Entry.listing : Entry → List Byte
  | .free => List.replicate 9 0
  | .loading id owner start length written fault =>
    u8 (1 + 4 * portBit owner + 64 * bit fault.isSome) ++ u16 id ++ u8 start ++ u8 length ++ u8 written.length ++
      u8 (lowestUnwritten written length) ++
      (match fault with
        | some f => u8 f.index ++ u8 f.reason.code
        | none => [0, 0])
  | .ready id start length users weighs =>
    u8 (2 + 8 * bit users.one + 16 * bit users.two + 32 * bit weighs) ++ u16 id ++ u8 start ++ u8 length ++ [0, 0, 0, 0]

/-- The results of LIST_RECIPES: eight entry records, then the free-extent list (R24). -/
def Store.listing (st : Store) : List Byte :=
  st.table.toList.flatMap Entry.listing ++ u8 st.free.length ++
    st.free.flatMap (fun e => u8 e.start ++ u8 (e.length - 1))

/-- LIST_RECIPES at the store (R24). -/
def answerListRecipes (params : List Byte) (s : State) : Reply :=
  match params with
  | [] => ⟨s, .ok, s.store.listing⟩
  | _ => refuse s .badParam

/-- The meaning of LIST_RECIPES (R24). -/
def execListRecipes (x : Xfer) (params : List Byte) (s : State) : Host.Outcome State Fault Refusal :=
  takeRequest 0x15 x params (answerListRecipes params) s

end Sys2Proof.Machine
end

