-- ==== Sys2Proof/Machine/Run.lean ====
section
/-! DEFINITION. The step engines (chapter 2): what a step engine hands to its bowl's units, step entry and step end, loops
and flows, pausing, holding, faults and the end of a run. The requests that steer a run are in RunRequests.lean. -/

namespace Sys2Proof.Machine

open Sys2Proof

/-! ## Handing orders to the units -/

/-- A stir order's outcome taken into the bowl, L set where it clamped or limited (R35). -/
def State.putStir (s : State) (b : BowlId) (r : StirUnit × Bool) : State := (s.setStir b r.1).noteClamp b r.2

/-- A heat order's outcome taken into the bowl, L set where it clamped (R35). -/
def State.putHeat (s : State) (b : BowlId) (r : HeatUnit × Bool) : State := (s.setHeat b r.1).noteClamp b r.2

/-- No heat and speed 0 handed (R27); `runEnd` at the end of a run (R87). -/
def State.giveRest (s : State) (b : BowlId) (runEnd : Bool) : State :=
  let s := s.setHeat b ((s.bowl b).heat.handNoHeat runEnd)
  s.putStir b (s.bowl b).stir.handZero

/-- Outputs forced to 0 (R27, R87, R120). -/
def State.forceOff (s : State) (b : BowlId) : State :=
  let s := s.setHeat b (s.bowl b).heat.forceOff
  s.putStir b (s.bowl b).stir.handForcedOff

/-- The stir part the unit is given for a step (R32): the record's, at the override's speed where one is present; an override
without a stir part runs FORWARD, CONTINUOUS. -/
def stirToHand (st : Step) (override : Option Nat) : Option StirPart :=
  match st.stir, override with
  | none, none => none
  | none, some v => some ⟨v, .forward, none⟩
  | some p, none => some p
  | some p, some v => some { p with speed := v }

/-- A stir part, or its absence, handed to the stirring unit (R32, R106). -/
def State.giveStir (s : State) (b : BowlId) (isNew : Bool) (p : Option StirPart) : State :=
  match p with
  | some p => s.putStir b ((s.bowl b).stir.handStir isNew p)
  | none => s.putStir b (s.bowl b).stir.handZero

/-- A heat part, or its absence, handed to the heating unit (R32, R87). -/
def State.giveHeat (s : State) (b : BowlId) (isNew : Bool) (p : Option HeatPart) : State :=
  let x := s.bowl b
  match p with
  | some p => s.putHeat b (x.heat.handStep x.cal.values.mode isNew p x.run.offset)
  | none => s.setHeat b (x.heat.handNoHeat false)

/-- The step in force of a run, decoded; a blank one where there is none. -/
def RunContext.step (r : RunContext) : Step :=
  match r.record with
  | some f => Step.ofRecord f.bytes
  | none => .blank

/-- The heat and stir parts of the step in force handed with the overrides (R32). The first handing after the step's entry is
a new step, a later one a continuation (R87). -/
def State.handParts (s : State) (b : BowlId) : State :=
  let r := (s.bowl b).run
  let s := s.setRun b { r with partsHanded := true }
  let s := s.giveHeat b (!r.partsHanded) r.step.heat
  s.giveStir b (!r.partsHanded) (stirToHand r.step r.speedOverride)

/-- The step's weigh part armed, or the channel left unarmed (R32, R71). -/
def State.armWeigh (s : State) (b : BowlId) (w : Option WeighPart) : State :=
  match w with
  | some w =>
    let r := (s.bowl b).weigh.arm w
    (s.setWeigh b r.1).noteClamp b r.2
  | none => s.setWeigh b (s.bowl b).weigh.withdraw

/-- The weigh part withdrawn (R32, R73). -/
def State.withdrawWeigh (s : State) (b : BowlId) : State := s.setWeigh b (s.bowl b).weigh.withdraw

/-! ## The lid-free test on a bowl (R28) -/

/-- Whether the bowl's lid is open (R108). -/
def Bowl.lidOpen (x : Bowl) : Bool := decide (x.stir.lid.level = .opened)

/-- Whether the step in force is lid-free, with the overrides in force and the measured temperature that stands. -/
def Bowl.stepLidFree (x : Bowl) : Bool := x.run.step.lidFree x.run.offset x.run.speedOverride x.heat.temp

/-! ## Pausing (R47, R49, R50) -/

/-- A set with the LID cause, the MAINS cause or the REQUEST cause. -/
def PauseSet.any (p : PauseSet) : Bool := p.request || p.lid || p.mains

/-- The pause causes a step entry adds (R31). -/
def State.entryCauses (s : State) (b : BowlId) : PauseSet :=
  let x := s.bowl b
  ⟨x.run.pauses.request, x.run.pauses.lid || (x.lidOpen && !x.stepLidFree), x.run.pauses.mains || !s.arbiter.present⟩

/-- A bowl enters PAUSED from RUNNING or HOLDING (R47). -/
def State.enterPaused (s : State) (b : BowlId) (back : ResumeState) : State :=
  let s := s.setRun b { (s.bowl b).run with state := .paused, resume := some back }
  (s.giveRest b false).raise (.ofBowl b .paused)

/-- A cause joins a bowl's pause-cause set: a RUNNING or HOLDING bowl then enters PAUSED, a PAUSED one only gains the cause,
and a bowl in another state is not changed (R47 to R50). -/
def State.addPause (s : State) (b : BowlId) (join : PauseSet → PauseSet) : State :=
  let r := (s.bowl b).run
  let joined := s.setRun b { r with pauses := join r.pauses }
  match r.state with
  | .running => joined.enterPaused b .running
  | .holding => joined.enterPaused b .holding
  | .paused => joined
  | .idle => s
  | .calibrating => s
  | .fault => s

/-- LID joins a set. -/
def PauseSet.withLid (p : PauseSet) : PauseSet := { p with lid := true }

/-- MAINS joins a set. -/
def PauseSet.withMains (p : PauseSet) : PauseSet := { p with mains := true }

/-- REQUEST joins a set. -/
def PauseSet.withRequest (p : PauseSet) : PauseSet := { p with request := true }

/-- Whether what a bowl runs may not run with the lid open: a step that is not lid-free, or a hold (R28). -/
def Bowl.needsLid (x : Bowl) : Bool :=
  match x.run.state, x.run.resume with
  | .holding, _ => true
  | .paused, some .holding => true
  | _, _ => !x.stepLidFree

/-- The lid opens at the step engine (R49). -/
def State.lidOpened (s : State) (b : BowlId) : State :=
  if (s.bowl b).needsLid then s.addPause b PauseSet.withLid else s

/-- The lid-free test repeated while the lid is open and the bowl RUNNING (R49). -/
def State.retestLid (s : State) (b : BowlId) : State :=
  let x := s.bowl b
  if x.run.state = .running ∧ x.lidOpen ∧ x.stepLidFree = false then s.addPause b PauseSet.withLid else s

/-! ## Step entry (R31) -/

/-- The run context of a step just entered: steps 1 to 4 and 10 of R31, with the prompt of step 7. -/
def RunContext.atEntry (r : RunContext) (f : InForce) (index : Option Nat) : RunContext :=
  let st := Step.ofRecord f.bytes
  { r with
    record := some f
    stepIndex := index
    flags := r.flags.atEntry
    offset := none
    speedOverride := none
    extension := 0
    stepTimer := 0
    stepMs := 0
    endPending := st.triggers.isEmpty
    prompt := st.prompt
    partsHanded := false }

/-- Whether a record's duration is above 216,000 (R31). -/
def Step.durationClamped (st : Step) : Bool :=
  match st.duration with
  | some d => decide (216000 < d)
  | none => false

/-- Entering a step (R31). -/
def State.enterStep (s : State) (b : BowlId) (f : InForce) (index : Option Nat) : State :=
  let st := Step.ofRecord f.bytes
  let s := (s.setRun b ((s.bowl b).run.atEntry f index)).noteClamp b st.durationClamped
  let causes := s.entryCauses b
  let s := s.setRun b { (s.bowl b).run with pauses := causes }
  let s := if causes.any then s.giveRest b false else s.handParts b
  let s := s.armWeigh b st.weigh
  let s := if st.prompt.isSome then s.raise (.ofBowl b .prompt) else s
  let s := s.raise (.ofBowl b .step)
  if causes.any then
    (s.setRun b { (s.bowl b).run with state := .paused, resume := some .running }).raise (.ofBowl b .paused)
  else s

/-! ## Loops and transfers (R39, R41) -/

/-- The loop stack after the pops of a transfer to step `t`: every loop whose range does not contain `t`, and then the loop
that opens at `t` (R41). -/
def popFor (loops : List LoopEntry) (t : Nat) : List LoopEntry :=
  let inside := loops.filter (fun e => inRange (e.opens, e.closes) t)
  match inside with
  | [] => []
  | e :: rest => if e.opens = t then rest else inside

/-- A loop pushed at its open step, its count clamped to 250 (R41). -/
def State.pushLoop (s : State) (b : BowlId) (f : InForce) (t : Nat) : State :=
  match (Step.ofRecord f.bytes).loopOpen, f.close with
  | some n, some c =>
    let r := (s.bowl b).run
    (s.setRun b { r with loops := ⟨t, c, min n 250⟩ :: r.loops }).noteClamp b (decide (250 < n))
  | _, _ => s

/-- The record of index `t` of the slot a bowl runs (R25). -/
def State.fetch (s : State) (b : BowlId) (t : Nat) : Option InForce :=
  match (s.bowl b).run.source with
  | .slot n => s.deliver n t
  | .noRun => none
  | .manual => none

/-- A transfer to step `t`, other than a loop-back (R41). -/
def State.transferTo (s : State) (b : BowlId) (t : Nat) : State :=
  match s.fetch b t with
  | some f =>
    let r := (s.bowl b).run
    let s := s.setRun b { r with loops := popFor r.loops t }
    (s.enterStep b f (some t)).pushLoop b f t
  | none => s

/-- A loop-back: the open step is entered without a change to the loop stack (R39). -/
def State.loopBack (s : State) (b : BowlId) (t : Nat) : State :=
  match s.fetch b t with
  | some f => s.enterStep b f (some t)
  | none => s

/-! ## The end of a run (R42) -/

/-- The run context after the end of a run (R42); flags, step timer and fault capture are kept. -/
def RunContext.ended (r : RunContext) : RunContext :=
  { r with
    state := .idle
    source := .noRun
    record := none
    stepIndex := none
    loops := []
    offset := none
    speedOverride := none
    extension := 0
    prompt := none
    pauses := .empty
    resume := none
    hold := none
    endPending := false
    partsHanded := false }

/-- The bowl leaves the user set of the slot it runs (R42). -/
def State.leaveSlot (s : State) (b : BowlId) : State :=
  match (s.bowl b).run.source with
  | .slot n => s.setUser n b false
  | .noRun => s
  | .manual => s

/-- The end of a run (R42). -/
def State.endRun (s : State) (b : BowlId) : State :=
  let s := s.leaveSlot b
  let s := s.setRun b (s.bowl b).run.ended
  (s.giveRest b true).withdrawWeigh b

/-- The end of a run by FINISH or by the hold limit: RUN_END is noticed (R42, R53). -/
def State.finishRun (s : State) (b : BowlId) : State := (s.endRun b).raise (.ofBowl b .runEnd)

/-! ## Holding (R52) -/

/-- The band in force of a hold: AUTO gives HOT at 80.0 °C or above (R52). -/
def bandInForce (c : BandChoice) (temp : Option Int) : HoldBand :=
  match c, temp with
  | .warm, _ => .warm
  | .hot, _ => .hot
  | .auto, some t => if 800 ≤ t then .hot else .warm
  | .auto, none => .warm

/-- The hold's parts handed: the band's target, and the kept stir or speed 0 (R52). -/
def State.handHold (s : State) (b : BowlId) (band : HoldBand) (isNew : Bool) : State :=
  let x := s.bowl b
  let s := s.setHeat b (x.heat.handHold x.cal.values.mode band)
  s.giveStir b isNew x.run.step.holdStir

/-- A HOLD flow (R52). -/
def State.enterHold (s : State) (b : BowlId) (choice : BandChoice) (limit : Nat) : State :=
  let x := s.bowl b
  let band := bandInForce choice x.heat.temp
  let minutes := if limit = 0 then x.heat.holdDefault else min limit 240
  let s := s.setRun b
    { x.run with
      state := .holding
      hold := some ⟨band, minutes, 0⟩
      holdMs := 0
      offset := none
      speedOverride := none
      extension := 0
      endPending := false }
  (s.noteClamp b (decide (240 < limit))).handHold b band true

/-! ## The end of a step (R38 to R40) -/

/-- The flow of an ending step (R40). In a manual run it is always FINISH. -/
def State.applyFlow (s : State) (b : BowlId) (st : Step) : State :=
  let r := (s.bowl b).run
  match r.stepIndex with
  | none => s.finishRun b
  | some i =>
    match st.flow with
    | .next => s.transferTo b (i + 1)
    | .branch flag sense target => s.transferTo b (if r.flags.get flag = sense then target else i + 1)
    | .finish => s.finishRun b
    | .hold band limit => s.enterHold b band limit

/-- What the loop close of an ending step does (R39): nothing, or the loop stack after it and the index looped back to. -/
def loopClose (st : Step) (index : Option Nat) (loops : List LoopEntry) (w : FlagWord) : List LoopEntry × Option Nat :=
  match st.loopClose, index, loops with
  | true, some i, e :: rest =>
    if e.closes ≠ i then (loops, none)
    else
      let broken := match st.breakTest with
        | some (flag, sense) => w.get flag == sense
        | none => false
      if broken then (rest, none)
      else if 1 < e.remaining then ({ e with remaining := e.remaining - 1 } :: rest, some e.opens)
      else (rest, none)
  | _, _, _ => (loops, none)

/-- Ending a step (R38): the prompt closes, the weigh part is withdrawn, the loop close is applied, and the flow unless the
loop close has looped back. -/
def State.endStep (s : State) (b : BowlId) : State :=
  let r := (s.bowl b).run
  let st := r.step
  let l := loopClose st r.stepIndex r.loops r.flags
  let s := s.setRun b { r with prompt := none, endPending := false, loops := l.1 }
  let s := s.withdrawWeigh b
  match l.2 with
  | some o => s.loopBack b o
  | none => s.applyFlow b st

/-- A trigger evaluation (R36): made while RUNNING, it ends the step when the triggers are met. -/
def State.evaluate (s : State) (b : BowlId) : State :=
  let r := (s.bowl b).run
  if r.state = .running ∧ r.step.triggersMet r.stepTimer r.extension r.flags then s.endStep b else s

/-- A new condition word: a change to T, M, O, Y or N starts a trigger evaluation (R34, R36). -/
def State.changeFlags (s : State) (b : BowlId) (w : FlagWord) : State :=
  let old := (s.bowl b).run.flags
  let s := s.setFlags b w
  if w.t = old.t ∧ w.m = old.m ∧ w.o = old.o ∧ w.y = old.y ∧ w.n = old.n then s else s.evaluate b

/-! ## Faults (R54, R55) -/

/-- A fault cause in a set. -/
def CauseSet.has (c : CauseSet) : FaultCause → Bool
  | .overtemp => c.overtemp
  | .sensor => c.sensor
  | .stall => c.stall
  | .lock => c.lock

/-- A set with one more fault cause. -/
def CauseSet.add (c : CauseSet) : FaultCause → CauseSet
  | .overtemp => { c with overtemp := true }
  | .sensor => { c with sensor := true }
  | .stall => { c with stall := true }
  | .lock => { c with lock := true }

/-- A capture after a further report: its first cause is not repeated (R55). -/
def Capture.addFurther (c : Capture) (cause : FaultCause) : Capture :=
  if cause = c.cause then c else { c with further := c.further.add cause }

/-- The run context at the entry into FAULT (R54). -/
def RunContext.faulted (r : RunContext) (cause : FaultCause) (value : Int) : RunContext :=
  { r with
    state := .fault
    prompt := none
    pauses := .empty
    resume := none
    endPending := false
    capture := some ⟨cause, r.state, r.source, r.stepIndex, r.stepTimer, value, .empty⟩ }

/-- A fault report at the step engine: the entry into FAULT (R54), a calibration ending as aborted; or a further cause
(R55). -/
def State.reportFault (s : State) (b : BowlId) (cause : FaultCause) (value : Int) : State :=
  let r := (s.bowl b).run
  let s :=
    if r.state = .fault then s.setRun b { r with capture := r.capture.map (fun c => c.addFurther cause) }
    else
      let s := if r.state = .calibrating then s.closeCalibration b .aborted else s
      let s := s.setRun b ((s.bowl b).run.faulted cause value)
      (s.forceOff b).withdrawWeigh b
  s.raise (.ofBowl b .fault)

/-! ## Timed events of a run (R33, R37, R53) -/

/-- The TIME expiry: the step timer reaches the duration plus the time extension, and a trigger evaluation starts (R33). -/
def State.timeExpiry (s : State) (b : BowlId) : State :=
  let r := (s.bowl b).run
  match r.state, r.step.durationInForce with
  | .running, some d =>
    let due := d + r.extension
    let r := if r.stepTimer < due then { r with stepTimer := due, stepMs := 0 } else r
    (s.setRun b r).evaluate b
  | _, _ => s

/-- The meaning of TIME_EXPIRY (R33). -/
def execTimeExpiry (b : BowlId) (s : State) : Host.Outcome State Fault Refusal := whileReleased (fun s => s.timeExpiry b) s

/-- The hold timer reaches the hold limit: the run ends with RUN_END (R53). -/
def State.holdExpiry (s : State) (b : BowlId) : State :=
  if (s.bowl b).run.state = .holding then s.finishRun b else s

/-- The meaning of HOLD_LIMIT_EXPIRY (R53). -/
def execHoldLimitExpiry (b : BowlId) (s : State) : Host.Outcome State Fault Refusal :=
  whileReleased (fun s => s.holdExpiry b) s

/-- The completion of a step with an empty trigger set, taken while RUNNING (R37). -/
def State.endCompletion (s : State) (b : BowlId) : State :=
  let r := (s.bowl b).run
  if r.endPending ∧ r.state = .running then s.endStep b else s

/-- The meaning of END_PENDING_COMPLETION (R37). -/
def execEndPendingCompletion (b : BowlId) (s : State) : Host.Outcome State Fault Refusal :=
  whileReleased (fun s => s.endCompletion b) s

end Sys2Proof.Machine
end

