-- ==== Sys2Proof/Machine/RunRequests.lean ====
section
/-! DEFINITION. The requests that start, steer and end a bowl's run (chapter 2), and TARE and SET_BOWL_CONFIG (R77, R102). Each
tests in the order its rule gives; the first condition that holds gives the refusal, and a refused request changes nothing. -/

namespace Sys2Proof.Machine

open Sys2Proof

/-- A request whose first parameter is a bowl, refused with BAD_PARAM for a bowl number other than 1 or 2. -/
def withBowl (pb : Byte) (s : State) (f : BowlId → Reply) : Reply :=
  match bowlOf pb with
  | some b => f b
  | none => refuse s .badParam

/-! ## Starting a run (R29, R30) -/

/-- The run context as a START or MANUAL sets it before step entry (R29, R30): L cleared, the loop stack, overrides, pause-cause
set and hold at their starting values, the fault capture kept, the bowl RUNNING. -/
def RunContext.started (r : RunContext) (source : RunSource) : RunContext :=
  { r with
    state := .running
    source := source
    loops := []
    flags := { r.flags with l := false }
    offset := none
    speedOverride := none
    extension := 0
    pauses := .empty
    resume := none
    hold := none }

/-- Whether START may begin at an index: at depth 0, or at a loop open step of depth 1 (R29). -/
def startIndexOk (steps : List Step) (i : Nat) : Bool :=
  let depth := depthOf (loopWalk steps).loops i
  decide (i < steps.length) &&
    (decide (depth = 0) || (decide (depth = 1) && (steps.getD i .blank).loopOpen.isSome))

/-- The tests START and MANUAL share before their own: autoload, bowl state, config settle (R29, R30). -/
def State.startRefusal (s : State) (b : BowlId) : Option Status :=
  if s.autoloading then some .busy
  else if (s.bowl b).run.state ≠ .idle then some .wrongState
  else if (s.bowl b).heat.configSettle.isSome then some .settling
  else none

/-- The refusal of a START of a slot at an index after the shared tests (R29). -/
def State.startSlotRefusal (s : State) (b : BowlId) (slot i : Nat) : Option Status :=
  match s.store.entry slot with
  | .ready _ start length _ weighs =>
    let x := s.bowl b
    let steps := s.readySteps start length
    if startIndexOk steps i = false then some .badParam
    else if weighs ∧ x.cal.values.gain = 0 then some .uncalibrated
    else if x.lidOpen ∧ (steps.getD i .blank).lidFree none none x.heat.temp = false then some .interlock
    else none
  | .loading _ _ _ _ _ _ => some .wrongState
  | .free => some .wrongState

/-- A START taken: the bowl joins the slot's user set and enters the start index by the transfer rule (R29). -/
def State.beginRun (s : State) (b : BowlId) (slot i : Nat) : State :=
  let s := s.setUser slot b true
  (s.setRun b ((s.bowl b).run.started (.slot slot))).transferTo b i

/-- START at the step engine (R29). -/
def answerStart (params : List Byte) (s : State) : Reply :=
  match params with
  | [pb, ps, pi] =>
    withBowl pb s fun b =>
      if 8 ≤ ps.toNat then refuse s .badParam
      else
        match s.startRefusal b with
        | some st => refuse s st
        | none =>
          match s.startSlotRefusal b ps.toNat pi.toNat with
          | some st => refuse s st
          | none => ⟨s.beginRun b ps.toNat pi.toNat, .ok, []⟩
  | _ => refuse s .badParam

/-- The meaning of START (R29). -/
def execStart (x : Xfer) (params : List Byte) (s : State) : Host.Outcome State Fault Refusal :=
  takeRequest 0x20 x params (answerStart params) s

/-- The synthetic record MANUAL's parameters ask for, or none where a field is outside its encoding (R30, R162). -/
def manualRecord (presence target speed dir duration : Nat) : Option Record :=
  let heat := presence.testBit 0
  let stir := presence.testBit 1
  if 4 ≤ presence ∨ duration = 0 ∨ (heat ∧ 512 ≤ target) ∨ (stir ∧ (512 ≤ speed ∨ 2 ≤ dir)) then none
  else some (syntheticRecord (present heat target) (present stir (speed, dir)) duration)

/-- A MANUAL taken: the synthetic step is entered (R30). -/
def State.beginManual (s : State) (b : BowlId) (r : Record) : State :=
  (s.setRun b ((s.bowl b).run.started .manual)).enterStep b ⟨r, none⟩ none

/-- MANUAL at the step engine (R30). -/
def answerManual (params : List Byte) (s : State) : Reply :=
  match params with
  | [pb, pp, t1, t0, v1, v0, pd, d2, d1, d0] =>
    withBowl pb s fun b =>
      match manualRecord pp.toNat (beNat [t1, t0]) (beNat [v1, v0]) pd.toNat (beNat [d2, d1, d0]) with
      | none => refuse s .badParam
      | some r =>
        match s.startRefusal b with
        | some st => refuse s st
        | none =>
          let x := s.bowl b
          if x.lidOpen ∧ (Step.ofRecord r).lidFree none none x.heat.temp = false then refuse s .interlock
          else ⟨s.beginManual b r, .ok, []⟩
  | _ => refuse s .badParam

/-- The meaning of MANUAL (R30). -/
def execManual (x : Xfer) (params : List Byte) (s : State) : Host.Outcome State Fault Refusal :=
  takeRequest 0x21 x params (answerManual params) s

/-! ## Pausing and resuming (R48, R51) -/

/-- PAUSE for a bowl (R48). -/
def State.pauseBowl (s : State) (b : BowlId) : Reply :=
  match (s.bowl b).run.state with
  | .running => ⟨s.addPause b PauseSet.withRequest, .ok, []⟩
  | .paused => ⟨s.addPause b PauseSet.withRequest, .ok, []⟩
  | .holding => ⟨s.addPause b PauseSet.withRequest, .ok, []⟩
  | .idle => refuse s .wrongState
  | .calibrating => refuse s .wrongState
  | .fault => refuse s .wrongState

/-- PAUSE at the step engine (R48). -/
def answerPause (params : List Byte) (s : State) : Reply :=
  match params with
  | [pb] => withBowl pb s fun b => s.pauseBowl b
  | _ => refuse s .badParam

/-- The meaning of PAUSE (R48). -/
def execPause (x : Xfer) (params : List Byte) (s : State) : Host.Outcome State Fault Refusal :=
  takeRequest 0x22 x params (answerPause params) s

/-- A RESUME taken (R51): the pause-cause set empties and the bowl returns to its resume state. To RUNNING, the parts are
handed again and end pending ends the step, or a trigger evaluation is made. To HOLDING, the band and kept stir are handed. -/
def State.resumeBowl (s : State) (b : BowlId) : State :=
  let r := (s.bowl b).run
  let back (st : BowlState) : RunContext := { r with state := st, pauses := .empty, resume := none }
  match r.resume with
  | some .holding =>
    let s := s.setRun b (back .holding)
    match r.hold with
    | some h => s.handHold b h.band false
    | none => s
  | _ =>
    let s := (s.setRun b (back .running)).handParts b
    if r.endPending then s.endStep b else s.evaluate b

/-- RESUME at the step engine (R51). -/
def answerResume (params : List Byte) (s : State) : Reply :=
  match params with
  | [pb] =>
    withBowl pb s fun b =>
      let x := s.bowl b
      if x.run.state ≠ .paused then refuse s .wrongState
      else if s.arbiter.present = false then refuse s .wrongState
      else if x.lidOpen ∧ x.needsLid then refuse s .interlock
      else ⟨s.resumeBowl b, .ok, []⟩
  | _ => refuse s .badParam

/-- The meaning of RESUME (R51). -/
def execResume (x : Xfer) (params : List Byte) (s : State) : Host.Outcome State Fault Refusal :=
  takeRequest 0x23 x params (answerResume params) s

/-! ## Faults and stopping (R56, R57) -/

/-- Whether a fault cause is the capture's cause or among its further causes (R56). -/
def RunContext.hasCause (r : RunContext) (c : FaultCause) : Bool :=
  match r.capture with
  | some k => decide (k.cause = c) || k.further.has c
  | none => false

/-- Whether a bowl's fault persists (R56): OVERTEMP at 180.0 °C or above, SENSOR while the last conversion was outside the
table. -/
def Bowl.faultPersists (x : Bowl) : Bool :=
  (x.run.hasCause .overtemp &&
      (match x.heat.temp with
        | some t => decide (1800 ≤ t)
        | none => false)) ||
    (x.run.hasCause .sensor && x.heat.sensorOut)

/-- A CLEAR_FAULT taken: the over-temperature latch is cleared and the run ends without RUN_END (R56, R86). -/
def State.clearFault (s : State) (b : BowlId) : State :=
  (s.setHeat b { (s.bowl b).heat with latch := false }).endRun b

/-- CLEAR_FAULT at the step engine (R56). -/
def answerClearFault (params : List Byte) (s : State) : Reply :=
  match params with
  | [pb] =>
    withBowl pb s fun b =>
      if (s.bowl b).run.state ≠ .fault then refuse s .wrongState
      else if (s.bowl b).faultPersists then refuse s .persists
      else ⟨s.clearFault b, .ok, []⟩
  | _ => refuse s .badParam

/-- The meaning of CLEAR_FAULT (R56). -/
def execClearFault (x : Xfer) (params : List Byte) (s : State) : Host.Outcome State Fault Refusal :=
  takeRequest 0x29 x params (answerClearFault params) s

/-- STOP for a bowl, by its state (R57). -/
def State.stopBowl (s : State) (b : BowlId) : Reply :=
  match (s.bowl b).run.state with
  | .idle => ⟨s.forceOff b, .ok, []⟩
  | .running => ⟨(s.forceOff b).endRun b, .ok, []⟩
  | .paused => ⟨(s.forceOff b).endRun b, .ok, []⟩
  | .holding => ⟨(s.forceOff b).endRun b, .ok, []⟩
  | .calibrating => s.abortCalibration b
  | .fault => if (s.bowl b).faultPersists then refuse s .wrongState else ⟨s.clearFault b, .ok, []⟩

/-- STOP at the step engine (R57). -/
def answerStop (params : List Byte) (s : State) : Reply :=
  match params with
  | [pb] => withBowl pb s fun b => s.stopBowl b
  | _ => refuse s .badParam

/-- The meaning of STOP (R57). -/
def execStop (x : Xfer) (params : List Byte) (s : State) : Host.Outcome State Fault Refusal :=
  takeRequest 0x24 x params (answerStop params) s

/-! ## Steering a step (R44 to R46) -/

/-- SKIP_STEP at the step engine (R46). -/
def answerSkipStep (params : List Byte) (s : State) : Reply :=
  match params with
  | [pb] =>
    withBowl pb s fun b =>
      match (s.bowl b).run.state with
      | .running => ⟨s.endStep b, .ok, []⟩
      | .holding => ⟨s.finishRun b, .ok, []⟩
      | .idle => refuse s .wrongState
      | .paused => refuse s .wrongState
      | .calibrating => refuse s .wrongState
      | .fault => refuse s .wrongState
  | _ => refuse s .badParam

/-- The meaning of SKIP_STEP (R46). -/
def execSkipStep (x : Xfer) (params : List Byte) (s : State) : Host.Outcome State Fault Refusal :=
  takeRequest 0x25 x params (answerSkipStep params) s

/-- An ANSWER taken (R44): the prompt closes, YES and DONE set Y, NO sets N. -/
def State.takeAnswer (s : State) (b : BowlId) (no : Bool) : State :=
  let r := (s.bowl b).run
  let s := s.setRun b { r with prompt := none }
  s.changeFlags b (if no then { r.flags with n := true } else { r.flags with y := true })

/-- ANSWER at the step engine (R44). Replies: 0 YES, 1 NO, 2 DONE (R162). -/
def answerAnswer (params : List Byte) (s : State) : Reply :=
  match params with
  | [pb, pc, pr] =>
    withBowl pb s fun b =>
      if pc = 0 ∨ 2 < pr.toNat then refuse s .badParam
      else if (s.bowl b).run.state = .calibrating then refuse s .wrongState
      else
        match (s.bowl b).run.prompt with
        | none => refuse s .promptClosed
        | some c => if c ≠ pc.toNat then refuse s .promptMismatch else ⟨s.takeAnswer b (decide (pr = 1)), .ok, []⟩
  | _ => refuse s .badParam

/-- The meaning of ANSWER (R44). -/
def execAnswer (x : Xfer) (params : List Byte) (s : State) : Host.Outcome State Fault Refusal :=
  takeRequest 0x26 x params (answerAnswer params) s

/-- The run context after an ADJUST: each field present replaces its value, clamped to its range (R45). -/
def RunContext.adjusted (r : RunContext) (offset : Option Int) (speed extension : Option Nat) : RunContext :=
  { r with
    offset := match offset with
      | some v => some (clampInt (-200) 200 v)
      | none => r.offset
    speedOverride := match speed with
      | some v => some (min v 9600)
      | none => r.speedOverride
    extension := match extension with
      | some v => min v 6000
      | none => r.extension }

/-- Whether an ADJUST clamps a field (R45). -/
def adjustClamps (offset : Option Int) (speed extension : Option Nat) : Bool :=
  (match offset with
    | some v => decide (clampInt (-200) 200 v ≠ v)
    | none => false) ||
    (match speed with
      | some v => decide (9600 < v)
      | none => false) ||
    (match extension with
      | some v => decide (6000 < v)
      | none => false)

/-- An ADJUST taken (R45): in RUNNING a changed offset or speed is handed at once, the lid-free test is repeated (R49), and a
changed extension starts a trigger evaluation. -/
def State.takeAdjust (s : State) (b : BowlId) (offset : Option Int) (speed extension : Option Nat) : State :=
  let r := (s.bowl b).run
  let r' := r.adjusted offset speed extension
  let s := (s.setRun b r').noteClamp b (adjustClamps offset speed extension)
  if r.state = .running then
    let s := if r'.offset = r.offset ∧ r'.speedOverride = r.speedOverride then s else s.handParts b
    let s := s.retestLid b
    if r'.extension = r.extension then s else s.evaluate b
  else s

/-- Whether a bowl's state takes ADJUST: RUNNING, or PAUSED with resume state RUNNING (R45). -/
def RunContext.adjustable (r : RunContext) : Bool :=
  match r.state, r.resume with
  | .running, _ => true
  | .paused, some .running => true
  | _, _ => false

/-- ADJUST at the step engine (R45). Presence bits: 0 offset, 1 speed, 2 extension (R162). -/
def answerAdjust (params : List Byte) (s : State) : Reply :=
  match params with
  | [pb, pp, o1, o0, v1, v0, e1, e0] =>
    withBowl pb s fun b =>
      let presence := pp.toNat
      let speed := beNat [v1, v0]
      if 8 ≤ presence ∨ (presence.testBit 1 ∧ 512 ≤ speed) then refuse s .badParam
      else if (s.bowl b).run.adjustable = false then refuse s .wrongState
      else
        let offset := present (presence.testBit 0) (signedOf 16 (beNat [o1, o0]))
        let override := present (presence.testBit 1) (speed * 20)
        let extension := present (presence.testBit 2) (beNat [e1, e0])
        ⟨s.takeAdjust b offset override extension, if adjustClamps offset override extension then .clamped else .ok, []⟩
  | _ => refuse s .badParam

/-- The meaning of ADJUST (R45). -/
def execAdjust (x : Xfer) (params : List Byte) (s : State) : Host.Outcome State Fault Refusal :=
  takeRequest 0x27 x params (answerAdjust params) s

/-! ## TARE and SET_BOWL_CONFIG -/

/-- TARE at the channel (R77). -/
def answerTare (params : List Byte) (s : State) : Reply :=
  match params with
  | [pb] =>
    withBowl pb s fun b =>
      let x := s.bowl b
      if s.autoloading then refuse s .busy
      else if x.run.state = .calibrating then refuse s .wrongState
      else if x.cal.values.gain = 0 then refuse s .uncalibrated
      else if x.weigh.stable = false then refuse s .unstable
      else ⟨s.setWeigh b x.weigh.takeTare, .ok, s24 x.weigh.mass⟩
  | _ => refuse s .badParam

/-- The meaning of TARE (R77). -/
def execTare (x : Xfer) (params : List Byte) (s : State) : Host.Outcome State Fault Refusal :=
  takeRequest 0x28 x params (answerTare params) s

/-- A SET_BOWL_CONFIG taken (R102): stage mode, k and band in force, the hold-limit default, the 300 ms config settle; in
HOLDING the hold calls for the new mode's stage. -/
def Bowl.configure (x : Bowl) (mode : StageMode) (k band limit : Nat) : Bowl :=
  let heat := { x.heat with holdDefault := limit, configSettle := some 300 }
  { x with
    cal := { x.cal with values := { x.cal.values with mode := mode, k := k, band := band } }
    heat := if x.run.state = .holding then heat.callStage mode else heat }

/-- SET_BOWL_CONFIG at its owners (R102). -/
def answerSetBowlConfig (params : List Byte) (s : State) : Reply :=
  match params with
  | [pb, pm, k1, k0, pn, ph] =>
    withBowl pb s fun b =>
      match stageModeOf pm.toNat with
      | none => refuse s .badParam
      | some mode =>
        let k := beNat [k1, k0]
        let band := pn.toNat
        let limit := ph.toNat
        let x := s.bowl b
        if k < 1 ∨ 256 < k ∨ band < 1 ∨ limit < 1 ∨ 240 < limit then refuse s .badParam
        else if s.autoloading then refuse s .busy
        else if x.run.state ≠ .idle ∧ x.run.state ≠ .holding then refuse s .wrongState
        else if x.heat.configSettle.isSome then refuse s .settling
        else ⟨s.setBowl b (x.configure mode k band limit), .ok, []⟩
  | _ => refuse s .badParam

/-- The meaning of SET_BOWL_CONFIG (R102). -/
def execSetBowlConfig (x : Xfer) (params : List Byte) (s : State) : Host.Outcome State Fault Refusal :=
  takeRequest 0x2A x params (answerSetBowlConfig params) s

end Sys2Proof.Machine
end

