-- ==== Sys2Proof/Machine/Events.lean ====
section
/-! DEFINITION. The events that reach the units from the appliance and from their own timers, with what they pass on to the
step engines: conversions, tacho measurements, switch changes, timer expiries and mains loss. -/

namespace Sys2Proof.Machine

open Sys2Proof

/-! ## Weighing -/

/-- A channel's report taken by its step engine: S, and the changes of M and O with their trigger evaluation (R34, R74). -/
def State.takeMassReport (s : State) (b : BowlId) (stable : Bool) (r : MassReport) : State :=
  let w := (s.bowl b).run.flags
  s.changeFlags b { w with s := stable, m := r.m.getD w.m, o := w.o || r.o }

/-- A conversion of a bowl that is not CALIBRATING (R60): the mass clamp sets L (R63), and the report goes to the step
engine (R69, R74). -/
def State.weighConversion (s : State) (b : BowlId) (r : Int) : State :=
  let x := s.bowl b
  let c := x.weigh.convert x.cal.values r
  ((s.setWeigh b c.1).noteClamp b c.2.1).takeMassReport b c.1.stable c.2.2

/-- A bridge conversion: handed to the calibration block while the bowl is CALIBRATING (R60, R80). -/
def State.loadCell (s : State) (b : BowlId) (r : Int) : State :=
  if (s.bowl b).run.state = .calibrating then s.calibrationConversion b r else s.weighConversion b r

/-- The meaning of LOAD_CELL_CONVERSION (R60). -/
def execLoadCellConversion (b : BowlId) (sample : BitVec 24) (s : State) : Host.Outcome State Fault Refusal :=
  whileReleased (fun s => s.loadCell b sample.toInt) s

/-- The meaning of HOLD_OFF_EXPIRY (R68). -/
def execHoldOffExpiry (b : BowlId) (s : State) : Host.Outcome State Fault Refusal :=
  whileReleased (fun s => s.setWeigh b (s.bowl b).weigh.holdOffExpiry) s

/-! ## Heating -/

/-- A conversion outside the table: the first in a row reports SENSOR with the code (R83). -/
def State.sensorOutside (s : State) (b : BowlId) (code : Nat) : State :=
  let h := (s.bowl b).heat
  let s := s.setHeat b { h with sensorOut := true }
  if h.sensorOut then s else s.reportFault b .sensor code

/-- The over-temperature test of a conversion (R85): above 200.0 °C with the latch clear, the latch sets and OVERTEMP is
reported. -/
def State.overTemperature (s : State) (b : BowlId) (t : Int) : State :=
  let h := (s.bowl b).heat
  if 2000 < t ∧ h.latch = false then (s.setHeat b h.setLatch).reportFault b .overtemp t else s

/-- The ramp advance and the T decision of a conversion (R89, R90). -/
def State.decideT (s : State) (b : BowlId) : State :=
  let h := (s.bowl b).heat
  if h.ordered then
    let h := h.rampAdvance
    if h.reachesT then
      let s := s.setHeat b { h with tReported := true }
      s.changeFlags b { (s.bowl b).run.flags with t := true }
    else s.setHeat b h
  else s

/-- The regulation step of a conversion, while a STEP or HOLD order is in force (R91). -/
def State.regulate (s : State) (b : BowlId) : State :=
  let x := s.bowl b
  if x.heat.ordered then s.setHeat b (x.heat.regulate x.cal.values) else s

/-- A conversion inside the table (R82): measured temperature, over-temperature test, the reports to the step engine and the
stirring unit (R84), and then ramp, T decision and regulation. -/
def State.temperatureInside (s : State) (b : BowlId) (t : Int) : State :=
  let s := s.setHeat b { (s.bowl b).heat with temp := some t, sensorOut := false }
  let s := s.overTemperature b t
  let s := s.retestLid b
  let s := s.putStir b ((s.bowl b).stir.hotReading t)
  (s.decideT b).regulate b

/-- A sensor conversion (R82, R83). -/
def State.temperature (s : State) (b : BowlId) (code : Nat) : State :=
  match tempOfCode code with
  | some t => s.temperatureInside b t
  | none => s.sensorOutside b code

/-- The meaning of TEMPERATURE_CONVERSION (R82). -/
def execTemperatureConversion (b : BowlId) (code : BitVec 12) (s : State) : Host.Outcome State Fault Refusal :=
  whileReleased (fun s => s.temperature b code.toNat) s

/-- The meaning of RELAY_SETTLE_EXPIRY (R97, R98). -/
def execRelaySettleExpiry (b : BowlId) (s : State) : Host.Outcome State Fault Refusal :=
  whileReleased (fun s => s.setHeat b ((s.bowl b).heat.settleExpiry (s.bowl b).cal.values)) s

/-- The meaning of CONFIG_SETTLE_EXPIRY (R103). -/
def execConfigSettleExpiry (b : BowlId) (s : State) : Host.Outcome State Fault Refusal :=
  whileReleased (fun s => s.setHeat b { (s.bowl b).heat with configSettle := none }) s

/-! ## Stirring and the lid -/

/-- A tacho completion (R107): the measured speed reaches both weighing channels (R67) and the unit makes its tests. -/
def State.tacho (s : State) (b : BowlId) (pulses : Nat) : State :=
  let v := speedOfPulses pulses
  let s := s.setWeigh .one ((s.bowl .one).weigh.seeSpeed b v)
  let s := s.setWeigh .two ((s.bowl .two).weigh.seeSpeed b v)
  s.putStir b ((s.bowl b).stir.tacho pulses)

/-- The meaning of TACHO_MEASUREMENT (R107). -/
def execTachoMeasurement (b : BowlId) (pulses : Nat) (s : State) : Host.Outcome State Fault Refusal :=
  whileReleased (fun s => s.tacho b pulses) s

/-- The meaning of STANDSTILL_TIMER_EXPIRY (R107). -/
def execStandstillTimerExpiry (b : BowlId) (s : State) : Host.Outcome State Fault Refusal :=
  whileReleased (fun s => s.putStir b (s.bowl b).stir.standstillExpiry) s

/-- The stall timer's expiry: a STALL fault with the measured speed (R116). -/
def State.stallExpiry (s : State) (b : BowlId) : State :=
  let u := (s.bowl b).stir
  if u.stall.isSome then (s.setStir b { u with stall := none }).reportFault b .stall u.measured else s

/-- The meaning of STALL_TIMER_EXPIRY (R116). -/
def execStallTimerExpiry (b : BowlId) (s : State) : Host.Outcome State Fault Refusal :=
  whileReleased (fun s => s.stallExpiry b) s

/-- The lock timer's expiry while ENGAGING: the lock is released and LOCK reported with value 1 (R113). The target is formed
by the FORCED_OFF order of the fault, and once more for the lock's change. -/
def State.lockExpiry (s : State) (b : BowlId) : State :=
  let u := (s.bowl b).stir
  if u.lock = .engaging ∧ u.lockTimer.isSome then
    let s := (s.setStir b u.release).reportFault b .lock 1
    s.putStir b (s.bowl b).stir.form
  else s

/-- The meaning of LOCK_TIMER_EXPIRY (R113). -/
def execLockTimerExpiry (b : BowlId) (s : State) : Host.Outcome State Fault Refusal :=
  whileReleased (fun s => s.lockExpiry b) s

/-- The meaning of RAMP_STEP (R111). -/
def execRampStep (b : BowlId) (s : State) : Host.Outcome State Fault Refusal :=
  whileReleased (fun s => s.putStir b (s.bowl b).stir.rampStep) s

/-- The meaning of INTERVAL_PHASE_CHANGE (R110). -/
def execIntervalPhaseChange (b : BowlId) (s : State) : Host.Outcome State Fault Refusal :=
  whileReleased (fun s => s.putStir b (s.bowl b).stir.phaseChange) s

/-- A switch input of a bowl replaced. -/
def StirUnit.setSwitch (u : StirUnit) (sw : SwitchId) (i : SwitchInput) : StirUnit :=
  match sw with
  | .lid => { u with lid := i }
  | .confirm => { u with confirm := i }

/-- A switch input of a bowl. -/
def StirUnit.switch (u : StirUnit) : SwitchId → SwitchInput
  | .lid => u.lid
  | .confirm => u.confirm

/-- The meaning of SWITCH_LEVEL_CHANGE (R108). -/
def execSwitchLevelChange (b : BowlId) (sw : SwitchId) (level : SwitchLevel) (s : State) :
    Host.Outcome State Fault Refusal :=
  whileReleased (fun s => s.setStir b ((s.bowl b).stir.setSwitch sw (((s.bowl b).stir.switch sw).levelChange level))) s

/-- The meaning of SWITCH_FIRST_READING (R108). -/
def execSwitchFirstReading (b : BowlId) (sw : SwitchId) (level : SwitchLevel) (s : State) :
    Host.Outcome State Fault Refusal :=
  whileReleased (fun s => s.setStir b ((s.bowl b).stir.setSwitch sw (((s.bowl b).stir.switch sw).firstReading level))) s

/-- A lid change (R108): the target is re-formed, a lid opening under a CONFIRMED lock reports LOCK with value 2 (R115), and
the new lid state is reported to the step engine (R49). A level that is already the state is no change. -/
def State.lidChange (s : State) (b : BowlId) (level : SwitchLevel) : State :=
  let u := (s.bowl b).stir
  if level = u.lid.level then s.setStir b { u with lid := switchRead level }
  else
    let s := s.putStir b (u.lidChanged level)
    let s := if level = .opened ∧ u.lock = .confirmed then s.reportFault b .lock 2 else s
    if level = .opened then s.lidOpened b else s

/-- The meaning of LID_CHANGE (R108). -/
def execLidChange (b : BowlId) (level : SwitchLevel) (s : State) : Host.Outcome State Fault Refusal :=
  whileReleased (fun s => s.lidChange b level) s

/-- A confirm switch change (R113, R114). A level that is already the state is no change. -/
def State.confirmChange (s : State) (b : BowlId) (level : SwitchLevel) : State :=
  let u := (s.bowl b).stir
  if level = u.confirm.level then s.setStir b { u with confirm := switchRead level } else s.putStir b (u.confirmChanged level)

/-- The meaning of CONFIRM_SWITCH_CHANGE (R113). -/
def execConfirmSwitchChange (b : BowlId) (level : SwitchLevel) (s : State) : Host.Outcome State Fault Refusal :=
  whileReleased (fun s => s.confirmChange b level) s

/-! ## Mains loss (R124) -/

/-- The arbiter at mains loss: the window in progress is abandoned with the half-cycles of it that had begun (R124). -/
def Arbiter.lose (x : Arbiter) : Arbiter :=
  { x with
    present := false
    restoration := 0
    gap := none
    position := none
    current := none
    lastEnded := match x.current, x.position with
      | some a, some p => some (a, .abandoned (p + 1))
      | _, _ => x.lastEnded }

/-- Mains loss at the units of a bowl (R100, R118). -/
def State.unitsLoseMains (s : State) (b : BowlId) : State :=
  let s := s.setHeat b (s.bowl b).heat.mainsLoss
  s.putStir b (s.bowl b).stir.mainsLoss

/-- Mains loss (R124): the window abandoned, every grant withdrawn, every RUNNING or HOLDING bowl paused with MAINS, MAINS
noticed. -/
def State.mainsLoss (s : State) : State :=
  let s := { s with arbiter := s.arbiter.lose }
  let s := (s.unitsLoseMains .one).unitsLoseMains .two
  let s := (s.addPause .one PauseSet.withMains).addPause .two PauseSet.withMains
  s.raise .mains

/-- The gap timer has run out: mains loss while PRESENT, an end of the restoration count while ABSENT (R124, R125). -/
def State.gapRunOut (s : State) : State :=
  match s.arbiter.gap with
  | none => s
  | some _ =>
    if s.arbiter.present then s.mainsLoss
    else { s with arbiter := { s.arbiter with gap := none, restoration := 0 } }

/-- The gap timer's expiry. One that an arrival overtook is dropped: the arrival restarted the timer and no loss occurs
(R124). -/
def State.gapExpiry (s : State) : State :=
  if s.arbiter.overtaken then { s with arbiter := { s.arbiter with overtaken := false } } else s.gapRunOut

/-- The meaning of GAP_TIMER_EXPIRY (R124, R125). -/
def execGapTimerExpiry (s : State) : Host.Outcome State Fault Refusal := whileReleased State.gapExpiry s

/-! ## Power-on and the RESET pin (R144, R156) -/

/-- Every block at its starting values; the queue and the model's counters go on, the contents of step memory being undefined
anew (R7). -/
def State.restart (s : State) (inReset : Bool) : State :=
  { State.reset with inReset := inReset, resets := s.resets + 1, draws := s.draws, pending := s.pending }

/-- The meaning of POWER_ON (R144). -/
def execPowerOn (s : State) : Host.Outcome State Fault Refusal := .next (s.restart false)

/-- The meaning of RESET_PIN_ASSERT (R156). -/
def execResetPinAssert (s : State) : Host.Outcome State Fault Refusal := .next (s.restart true)

/-- The meaning of RESET_PIN_RELEASE (R144): every block stays at its starting values and autoload starts. A pin that is not
asserted is not released. -/
def execResetPinRelease (s : State) : Host.Outcome State Fault Refusal := .next (if s.inReset then s.restart false else s)

end Sys2Proof.Machine
end

