-- ==== Sys2Proof/Machine/Notices.lean ====
section
/-! DEFINITION. The notice requests (chapter 9) and RESET_PORT (R169). Each concerns the notice state of the port it arrives
at. -/

namespace Sys2Proof.Machine

open Sys2Proof

/-- The priority byte `j`: causes 4j to 4j + 3, two bits each, the slot of cause 15 being 0 (R175). -/
def NoticePort.priorityByte (n : NoticePort) (j : Nat) : Nat :=
  let prio (i : Nat) : Nat := (n.priority.toList.getD (4 * j + i) 0).val
  prio 0 + 4 * prio 1 + 16 * prio 2 + 64 * prio 3

/-- The 11 bytes of a port's notice state (R175). The spec gives bits 3 to 7 of byte 10, and bit 15 of the due set, no value: they
are sent as 0, the model's choice (assumption log entry 34). -/
def NoticePort.listing (n : NoticePort) : List Byte :=
  u16 n.flags.toNat ++ u16 n.enables.toNat ++ u8 (n.priorityByte 0) ++ u8 (n.priorityByte 1) ++ u8 (n.priorityByte 2) ++
    u8 (n.priorityByte 3) ++ u16 n.due ++ u8 (n.threshold.val + 4 * bit n.attention)

/-- GET_NOTICES at the notice unit (R175). -/
def answerGetNotices (port : PortId) (params : List Byte) (s : State) : Reply :=
  match params with
  | [] => ⟨s, .ok, (s.notices.get port).listing⟩
  | _ => refuse s .badParam

/-- The meaning of GET_NOTICES (R175). -/
def execGetNotices (x : Xfer) (params : List Byte) (s : State) : Host.Outcome State Fault Refusal :=
  takeRequest 0x03 x params (answerGetNotices x.port params) s

/-- The named causes leave a port's flag set (R176). -/
def NoticePort.acknowledge (n : NoticePort) (set : Nat) : NoticePort :=
  { n with flags := n.flags &&& ~~~(BitVec.ofNat 15 set) }

/-- ACK_NOTICE at the notice unit (R176): bit 15 is refused. -/
def answerAckNotice (port : PortId) (params : List Byte) (s : State) : Reply :=
  match params with
  | [c1, c0] =>
    let set := beNat [c1, c0]
    if 2 ^ 15 ≤ set then refuse s .badParam
    else ⟨s.setNotice port ((s.notices.get port).acknowledge set), .ok, []⟩
  | _ => refuse s .badParam

/-- The meaning of ACK_NOTICE (R176). -/
def execAckNotice (x : Xfer) (params : List Byte) (s : State) : Host.Outcome State Fault Refusal :=
  takeRequest 0x04 x params (answerAckNotice x.port params) s

/-- One cause's enable and priority set (R177). -/
def NoticePort.configure (n : NoticePort) (cause : Nat) (enable : Bool) (priority : Fin 4) : NoticePort :=
  let mask := BitVec.ofNat 15 (2 ^ cause)
  { n with
    enables := if enable then n.enables ||| mask else n.enables &&& ~~~mask
    priority := n.priority.setIfInBounds cause priority }

/-- SET_NOTICE at the notice unit (R177). -/
def answerSetNotice (port : PortId) (params : List Byte) (s : State) : Reply :=
  match params with
  | [pc, pe, pp] =>
    if 14 < pc.toNat ∨ 1 < pe.toNat ∨ 3 < pp.toNat then refuse s .badParam
    else
      ⟨s.setNotice port ((s.notices.get port).configure pc.toNat (decide (pe = 1)) (Fin.ofNat 4 pp.toNat)), .ok, []⟩
  | _ => refuse s .badParam

/-- The meaning of SET_NOTICE (R177). -/
def execSetNotice (x : Xfer) (params : List Byte) (s : State) : Host.Outcome State Fault Refusal :=
  takeRequest 0x05 x params (answerSetNotice x.port params) s

/-- SET_THRESHOLD at the notice unit (R177). -/
def answerSetThreshold (port : PortId) (params : List Byte) (s : State) : Reply :=
  match params with
  | [pl] =>
    if 3 < pl.toNat then refuse s .badParam
    else ⟨s.setNotice port { s.notices.get port with threshold := Fin.ofNat 4 pl.toNat }, .ok, []⟩
  | _ => refuse s .badParam

/-- The meaning of SET_THRESHOLD (R177). -/
def execSetThreshold (x : Xfer) (params : List Byte) (s : State) : Host.Outcome State Fault Refusal :=
  takeRequest 0x06 x params (answerSetThreshold x.port params) s

/-- RESET_PORT (R169): the port's notice state returns to its starting values and its LOADING recipes are discarded. -/
def answerResetPort (port : PortId) (params : List Byte) (s : State) : Reply :=
  match params with
  | [] => ⟨(s.setNotice port .initial).setStore (s.store.discardAll port), .ok, []⟩
  | _ => refuse s .badParam

/-- The meaning of RESET_PORT (R169). -/
def execResetPort (x : Xfer) (params : List Byte) (s : State) : Host.Outcome State Fault Refusal :=
  takeRequest 0x07 x params (answerResetPort x.port params) s

end Sys2Proof.Machine
end

