-- ==== Sys2Proof/Machine/Readout.lean ====
section
/-! DEFINITION. What masters read: the status block of GET_STATUS and the four readout pages (R164 to R168). A value the part
does not hold at the moment is sent in the absent encoding that R164 gives for its kind. -/

namespace Sys2Proof.Machine

open Sys2Proof

/-! ## Encodings (R164) -/

/-- A temperature: signed 0.1 °C, absent −32,768. -/
def encTemp (t : Option Int) : List Byte := s16 (t.getD (-32768))

/-- A mass: signed 0.1 g, absent −8,388,608. -/
def encMass (m : Option Int) : List Byte := s24 (m.getD (-8388608))

/-- A speed in rpm, absent 65,535. -/
def encSpeed (v : Option Nat) : List Byte := u16 (v.getD 65535)

/-- The remaining time of a timer in ms, 65,535 when it is stopped. -/
def encShort (t : Option Nat) : List Byte := u16 (t.getD 65535)

/-- A count, code or small value, absent 255. -/
def encCode (v : Option Nat) : List Byte := u8 (v.getD 255)

/-- Bowl state codes. -/
def BowlState.code : BowlState → Nat
  | .idle => 0
  | .running => 1
  | .paused => 2
  | .holding => 3
  | .calibrating => 4
  | .fault => 5

/-- Run source codes: 0 to 7 a slot, 8 MANUAL, 255 none. -/
def RunSource.code : RunSource → Nat
  | .slot n => n
  | .manual => 8
  | .noRun => 255

/-- Stage codes: 0 none, 1 MAIN, 2 KEEP. -/
def stageCode : Option Element → Nat
  | none => 0
  | some .main => 1
  | some .keep => 2

/-- Relay codes. -/
def Relay.code : Relay → Nat
  | .opened => 0
  | .settling => 1
  | .closed => 2

/-- Direction codes: 1 FORWARD, 2 REVERSE, 0 none. -/
def directionCode : Option Direction → Nat
  | none => 0
  | some .forward => 1
  | some .reverse => 2

/-- Lock codes (R165). -/
def Lock.code : Lock → Nat
  | .released => 0
  | .engaging => 1
  | .confirmed => 2

/-- The pause-cause set: REQUEST, LID, MAINS. Bits past the last member of a set are sent as 0, the model's choice (assumption log
entry 34). -/
def PauseSet.code (p : PauseSet) : Nat := bit p.request + 2 * bit p.lid + 4 * bit p.mains

/-- Heat order codes (R165). -/
def HeatOrder.code : HeatOrder → Nat
  | .noHeat => 0
  | .step _ _ _ => 1
  | .hold _ => 2
  | .forcedOff => 3

/-! ## GET_STATUS (R165) -/

/-- The run fields of the status block. -/
def RunContext.statusBytes (r : RunContext) : List Byte :=
  u8 r.state.code ++ u8 r.pauses.code ++ u8 r.source.code ++ encCode r.stepIndex ++ u24 r.stepTimer ++ u8 r.flags.code ++
    u8 (r.prompt.getD 0)

/-- The added mass as the last conversion formed it, absent with mass status NONE (R70, R79). -/
def Channel.shownAdded (c : Channel) : Option Int := present c.massAvailable c.added

/-- The weighing fields of the status block; the mass is 0 with mass status NONE. The spec gives bits 4 to 7 of the weighing flags
no value: they are sent as 0, the model's choice (assumption log entry 34). -/
def Channel.statusBytes (c : Channel) : List Byte :=
  s24 (if c.massAvailable then c.mass else 0) ++
    u8 (bit c.massAvailable + 2 * bit c.overload + 4 * bit c.stable + 8 * bit c.disturbed) ++ s24 c.tarePoint ++
    encMass c.shownAdded

/-- The heating fields of the status block. The spec gives bits 5 to 7 of the heating flags no value: they are sent as 0, the
model's choice (assumption log entry 34). -/
def HeatUnit.statusBytes (h : HeatUnit) : List Byte :=
  encTemp h.temp ++ u8 (bit h.sensorOut + 2 * bit h.latch + 4 * h.order.code + 16 * bit h.rampComplete) ++ encTemp h.target ++
    encTemp h.effective ++ u8 h.computed ++ u8 h.posted ++ u8 h.grant ++
    u8 (stageCode h.active + 4 * h.relayMain.code + 16 * h.relayKeep.code + 64 * stageCode h.pendingSwitch) ++
    u8 (stageCode (h.settle.map Settle.toward))

/-- The stirring flags of the status block. -/
def StirUnit.flagBits (u : StirUnit) : Nat :=
  bit (decide (u.drive = .reverse)) + 2 * directionCode u.pendingDir + 8 * bit u.reversalHold +
    16 * bit (decide (u.lid.level = .closed)) + 32 * bit (decide (u.confirm.level = .closed)) + 64 * u.lock.code

/-- The stirring fields of the status block. -/
def StirUnit.statusBytes (u : StirUnit) : List Byte := u16 u.measured ++ u16 u.setpoint ++ u16 u.target ++ u8 u.flagBits

/-- The mains byte: bit 0 PRESENT, bits 4 to 7 the restoration count. The spec gives bits 1 to 3 no value: they are sent as 0, the
model's choice (assumption log entry 34). -/
def Arbiter.mainsByte (x : Arbiter) : Nat := bit x.present + 16 * x.restoration

/-- The 39-byte status block of a bowl (R165). -/
def State.statusBlock (s : State) (b : BowlId) : List Byte :=
  let x := s.bowl b
  x.run.statusBytes ++ x.weigh.statusBytes ++ x.heat.statusBytes ++ x.stir.statusBytes ++ u8 s.arbiter.mainsByte

/-- GET_STATUS (R165). -/
def answerGetStatus (params : List Byte) (s : State) : Reply :=
  match params with
  | [pb] => withBowl pb s fun b => ⟨s, .ok, s.statusBlock b⟩
  | _ => refuse s .badParam

/-- The meaning of GET_STATUS (R165). -/
def execGetStatus (x : Xfer) (params : List Byte) (s : State) : Host.Outcome State Fault Refusal :=
  takeRequest 0x01 x params (answerGetStatus params) s

/-! ## Page 0 (R167) -/

/-- Resume state: 0 RUNNING, 1 HOLDING, 255 not held. -/
def resumeCode : Option ResumeState → Nat
  | some .running => 0
  | some .holding => 1
  | none => 255

/-- An entry of the loop stack. -/
def LoopEntry.bytes (e : LoopEntry) : List Byte := u8 e.opens ++ u8 e.closes ++ u8 e.remaining

/-- The loop stack: depth, then four entries, innermost first, unused ones 0. -/
def loopBytes (loops : List LoopEntry) : List Byte :=
  u8 loops.length ++ ((loops.flatMap LoopEntry.bytes) ++ List.replicate 12 0).take 12

/-- The effective step record, or 22 zero bytes. -/
def RunContext.effectiveBytes (r : RunContext) : List Byte :=
  match r.record with
  | some f => effectiveRecord f.bytes r.speedOverride
  | none => List.replicate 22 0

/-- The hold: band, limit, timer. With no hold the timer has no stated value (`free` gives its bytes). -/
def holdBytes (h : Option Hold) (free : List Byte) : List Byte :=
  match h with
  | some h => u8 (match h.band with | .warm => 0 | .hot => 1) ++ u8 h.limit ++ u24 h.timer
  | none => u8 255 ++ encCode none ++ free

/-- The weigh part: status, target in g, tolerance in g, decision reported. With no armed part the target has no stated value
(`free` gives its bytes). The spec gives bits 2 to 7 of the decision reported no value: they are sent as 0, the model's choice
(assumption log entry 34). -/
def Channel.partBytes (c : Channel) (free : List Byte) : List Byte :=
  match c.part with
  | some a =>
    u8 (match a.tare with | .pending => 1 | .captured => 2) ++ u16 (a.target / 10).toNat ++ u8 (a.tolerance / 10).toNat ++
      u8 (bit c.mReported + 2 * bit (decide (c.decision = .over)))
  | none => u8 0 ++ free ++ encCode none ++ u8 0

/-- The stir order: kind, requested speed, pattern, interval phase, phase timer. -/
def StirUnit.orderBytes (u : StirUnit) : List Byte :=
  (match u.order with
    | .speedZero => u8 0 ++ encSpeed none ++ encCode none
    | .stir v _ interval => u8 1 ++ encSpeed (some v) ++ u8 (bit interval.isSome)
    | .forcedOff => u8 2 ++ encSpeed none ++ encCode none) ++
    u8 (bit (!u.phaseOn)) ++ u16 u.phaseTimer

/-- Standstill codes. -/
def Standstill.code : Standstill → Nat
  | .reached => 0
  | .timing _ => 1
  | .notReached => 2

/-- The run fields of page 0. With no prompt open its code is sent as 0, the model's choice (assumption log entry 36). The spec
gives bits 2 to 7 of the presence byte of the overrides no value: they are sent as 0, the model's choice (assumption log entry
34). -/
def RunContext.pageBytes (r : RunContext) : List Byte :=
  u8 r.state.code ++ u8 (resumeCode r.resume) ++ u8 r.source.code ++ encCode r.stepIndex ++ u8 (bit r.endPending) ++
    r.effectiveBytes ++ encCode (r.record.bind InForce.close) ++ u24 r.stepTimer ++ loopBytes r.loops ++ u8 r.flags.code ++
    u8 (r.prompt.getD 0) ++ u8 (bit r.offset.isSome + 2 * bit r.speedOverride.isSome) ++ encTemp r.offset ++
    encSpeed r.speedOverride ++ u16 r.extension

/-- Page 0 of a bowl, 89 bytes; `free` gives the five bytes without a stated value. -/
def State.page0 (s : State) (b : BowlId) (free : List Byte) : List Byte :=
  let x := s.bowl b
  let u := x.stir
  x.run.pageBytes ++ holdBytes x.run.hold (free.take 3) ++ x.weigh.partBytes (free.drop 3) ++ u16 x.heat.integral.toNat ++
    u8 (bit x.heat.shortLast) ++ u8 x.heat.lowCount ++ u8 x.heat.highCount ++ u.orderBytes ++ u16 u.freeSpeed ++
    u16 u.demandSpeed ++ u16 u.lockSpeed ++ encSpeed u.ceiling ++ u8 (bit u.mainsHold) ++ u8 u.standstill.code ++
    encShort u.stall ++ encShort u.lockTimer

/-! ## Page 1 (R167) -/

/-- Fault cause codes. -/
def FaultCause.code : FaultCause → Nat
  | .overtemp => 0
  | .sensor => 1
  | .stall => 2
  | .lock => 3

/-- A set of fault causes; bits past the last member are sent as 0 (assumption log entry 34). -/
def CauseSet.code (c : CauseSet) : Nat := bit c.overtemp + 2 * bit c.sensor + 4 * bit c.stall + 8 * bit c.lock

/-- Page 1 of a bowl, 11 bytes: the fault capture. -/
def State.page1 (s : State) (b : BowlId) : List Byte :=
  match (s.bowl b).run.capture with
  | none => List.replicate 11 0
  | some c =>
    u8 1 ++ u8 c.cause.code ++ u8 c.stateAtFault.code ++ u8 c.source.code ++ encCode c.stepIndex ++ u24 c.stepTimer ++
      s16 c.value ++ u8 c.further.code

/-! ## Page 2 (R168) -/

/-- Calibration outcome codes (R151). -/
def CalOutcome.code : CalOutcome → Nat
  | .success => 0
  | .trimRange => 1
  | .disturbed => 2
  | .spanTooSmall => 3
  | .overload => 5
  | .aborted => 6

/-- The calibration context: kind, phase, trim under test, conversion count, attempt; all 0 when there is none. -/
def contextBytes (c : Option CalContext) : List Byte :=
  match c with
  | none => List.replicate 5 0
  | some x =>
    u8 (match x.kind with | .zero => 1 | .span _ => 2) ++
      (match x.phase with
        | .sweep t => u8 0 ++ u8 t ++ u8 x.count ++ encCode none
        | .capture attempt _ => u8 1 ++ encCode x.lockedTrim ++ u8 x.count ++ u8 attempt)

/-- Autoload codes. -/
def Autoload.code : Autoload → Nat
  | .inFlight => 0
  | .loaded => 1
  | .absent => 2
  | .bad => 3

/-- Last save outcome codes. -/
def saveCode : Option SaveOutcome → Nat
  | none => 0
  | some .ok => 1
  | some .writeFailed => 2

/-- Page 2 of a bowl, 28 bytes. -/
def State.page2 (s : State) (b : BowlId) : List Byte :=
  let x := s.bowl b
  let v := x.cal.values
  u8 v.trim ++ s24 v.zero ++ u24 v.gain ++ u16 v.k ++ u8 v.band ++ u8 v.kp ++ u8 v.ki ++ u8 v.mainRating ++
    u8 v.keepRating ++ u8 v.mode.code ++ u8 (bit (decide (v.gain ≠ 0))) ++ u8 (bit x.cal.zeroValid) ++
    encCode (x.cal.lastOutcome.map CalOutcome.code) ++ contextBytes x.cal.context ++ u8 s.image.autoload.code ++
    u8 (bit s.image.save.isSome) ++ u8 (saveCode s.image.lastSave) ++ u8 x.heat.holdDefault ++
    u8 (bit x.heat.configSettle.isSome)

/-! ## Page 3 (R168) -/

/-- How a window ended: 0 COMPLETED, 1 to 20 ABANDONED. -/
def Ended.code : Ended → Nat
  | .completed => 0
  | .abandoned n => n

/-- A motor's part of the account. -/
def MotorAccount.bytes (m : MotorAccount) : List Byte := u16 m.demand ++ u16 m.grant ++ encSpeed m.ceiling

/-- A heater's part of the account. -/
def HeaterAccount.bytes (h : HeaterAccount) : List Byte :=
  u8 (stageCode h.stage) ++ encCode h.rating ++ u8 h.posted ++ u16 h.demand ++ u8 h.grant ++ u16 h.grantPower

/-- The short set: motor 1, motor 2, heater 1, heater 2; bits past the last member are sent as 0 (assumption log entry 34). -/
def Account.shortCode (a : Account) : Nat :=
  bit a.motorShort.one + 2 * bit a.motorShort.two + 4 * bit a.heaterShort.one + 8 * bit a.heaterShort.two

/-- The 44 bytes of an account. -/
def Account.bytes (a : Account) (e : Ended) : List Byte :=
  u16 a.sequence ++ u8 e.code ++ u16 a.cap ++ u16 a.budget ++ u8 a.mode.code ++ u8 (bowlCode a.pointerBefore) ++
    u8 (bowlCode a.pointerAfter) ++ a.motors.one.bytes ++ a.motors.two.bytes ++ u16 a.remainder ++ a.heaters.one.bytes ++
    a.heaters.two.bytes ++ u8 (bowlCode a.servedFirst) ++ u16 a.leftOver ++ u8 a.shortCode

/-- Page 3, 59 bytes, the same for both bowls. -/
def State.page3 (s : State) : List Byte :=
  let x := s.arbiter
  u8 (bit x.present) ++ u8 x.restoration ++ encCode x.position ++ u16 x.sequence ++ u16 x.cap ++
    u16 (x.pendingCap.getD 65535) ++ u16 x.rating ++ u8 x.mode.code ++ encCode (x.pendingMode.map ArbMode.code) ++
    u8 (bowlCode x.pointer) ++
    (match x.lastEnded with
      | some (a, e) => u8 1 ++ a.bytes e
      | none => u8 0 ++ List.replicate 44 0)

/-! ## READ_PAGE (R166) -/

/-- Five bytes without a stated value, for the draw that stands (assumption log entry 4). -/
def State.freeBytes (s : State) : List Byte := (List.range 5).map (fun i => Config.unstatedByte (s.draws + i))

/-- READ_PAGE (R166). A read of page 0 moves the model's draw counter on, and nothing else. -/
def answerReadPage (params : List Byte) (s : State) : Reply :=
  match params with
  | [pb, pp] =>
    withBowl pb s fun b =>
      match pp.toNat with
      | 0 => ⟨{ s with draws := s.draws + 5 }, .ok, s.page0 b s.freeBytes⟩
      | 1 => ⟨s, .ok, s.page1 b⟩
      | 2 => ⟨s, .ok, s.page2 b⟩
      | 3 => ⟨s, .ok, s.page3⟩
      | _ => refuse s .badParam
  | _ => refuse s .badParam

/-- The meaning of READ_PAGE (R166). -/
def execReadPage (x : Xfer) (params : List Byte) (s : State) : Host.Outcome State Fault Refusal :=
  takeRequest 0x02 x params (answerReadPage params) s

end Sys2Proof.Machine
end

