-- ==== Sys2Proof/Machine/Frames.lean ====
section
/-! DEFINITION. What a port does with the bytes of a transfer at its release: the frame checks, the decode of the request code
and the answer of its owner (R160 to R162), and the meanings of the two commands that are spelled by raw bytes. -/

namespace Sys2Proof.Machine

open Sys2Proof

/-- The owner's answer to a request code with these parameters on a port, or none where the code is not in the table
(R162). -/
def ownerOf (code : Nat) (port : PortId) (params : List Byte) : Option (State → Reply) :=
  match code with
  | 0x00 => some (answerNop params)
  | 0x01 => some (answerGetStatus params)
  | 0x02 => some (answerReadPage params)
  | 0x03 => some (answerGetNotices port params)
  | 0x04 => some (answerAckNotice port params)
  | 0x05 => some (answerSetNotice port params)
  | 0x06 => some (answerSetThreshold port params)
  | 0x07 => some (answerResetPort port params)
  | 0x10 => some (answerOpenRecipe port params)
  | 0x11 => some (answerWriteStep port params)
  | 0x12 => some (answerSealRecipe port params)
  | 0x13 => some (answerDiscardRecipe port params)
  | 0x14 => some (answerUnloadRecipe params)
  | 0x15 => some (answerListRecipes params)
  | 0x20 => some (answerStart params)
  | 0x21 => some (answerManual params)
  | 0x22 => some (answerPause params)
  | 0x23 => some (answerResume params)
  | 0x24 => some (answerStop params)
  | 0x25 => some (answerSkipStep params)
  | 0x26 => some (answerAnswer params)
  | 0x27 => some (answerAdjust params)
  | 0x28 => some (answerTare params)
  | 0x29 => some (answerClearFault params)
  | 0x2A => some (answerSetBowlConfig params)
  | 0x30 => some (answerCalibrateZero params)
  | 0x31 => some (answerCalibrateSpan params)
  | 0x32 => some (answerAbortCalibration params)
  | 0x33 => some (answerSaveCalibration params)
  | 0x40 => some (answerSetPowerCap params)
  | 0x41 => some (answerSetArbitration params)
  | _ => none

/-- The response to a bad frame: tag 0, BAD_FRAME, no results (R160). -/
def Response.badFrameResponse : Response := ⟨0, .badFrame, []⟩

/-- The bytes received taken at the release: a bad frame does not act, an unknown request changes nothing, and a known one
is answered by its owner (R160, R161). -/
def takeFrame (port : PortId) (rx : List Byte) (count : Nat) (s : State) : State × Response :=
  match frameOf rx count with
  | none => (s, .badFrameResponse)
  | some (code, tag, params) =>
    match ownerOf code.toNat port params with
    | none => (s, ⟨tag, .unknownRequest, []⟩)
    | some owner => answerWith tag owner s

/-- The meaning of BAD_FRAME (R160): the bytes are delivered as they stand, and the frame checks refuse them. -/
def execBadFrame (p : PortId) (bytes : List Byte) (s : State) : Host.Outcome State Fault Refusal :=
  whileReleased (fun s => s.transfer p bytes (takeFrame p)) s

/-- The meaning of UNKNOWN_REQUEST (R161): a good frame with this code, whose decode finds no owner. -/
def execUnknownRequest (x : Xfer) (code : Byte) (params : List Byte) (s : State) : Host.Outcome State Fault Refusal :=
  whileReleased
    (fun s => s.transfer x.port (requestFrame code x.tag params ++ List.replicate x.fill 0) (takeFrame x.port)) s

end Sys2Proof.Machine
end

