-- ==== Sys2Proof/WellFormed.lean ====
section
/-! DEFINITION. Which commands are well formed: a request whose frame a master can send (R159), a bad frame that fails a check
of R160, an unknown request whose code is outside the table of R162. A command that is not well formed still has its meaning
in exec. -/

namespace Sys2Proof

open Sys2Proof.Machine

/-- Whether parameter bytes fit a request frame, whose length is 5 to 40 (R159, R160). -/
def paramsFit (params : List Byte) : Bool := decide (params.length ≤ 35)

/-- Whether the bytes of a transfer make a bad frame: at least one whole byte, and a check of R160 fails. -/
def isBadFrame (bytes : List Byte) : Bool := !bytes.isEmpty && (frameOf (bytes.take 40) bytes.length).isNone

/-- Whether a command is well formed. -/
def Instr.wf (i : Instr) : Bool :=
  match i with
  | .nop _ params => paramsFit params
  | .getStatus _ params => paramsFit params
  | .readPage _ params => paramsFit params
  | .getNotices _ params => paramsFit params
  | .ackNotice _ params => paramsFit params
  | .setNotice _ params => paramsFit params
  | .setThreshold _ params => paramsFit params
  | .resetPort _ params => paramsFit params
  | .openRecipe _ params => paramsFit params
  | .writeStep _ params => paramsFit params
  | .sealRecipe _ params => paramsFit params
  | .discardRecipe _ params => paramsFit params
  | .unloadRecipe _ params => paramsFit params
  | .listRecipes _ params => paramsFit params
  | .start _ params => paramsFit params
  | .manual _ params => paramsFit params
  | .pause _ params => paramsFit params
  | .resume _ params => paramsFit params
  | .stop _ params => paramsFit params
  | .skipStep _ params => paramsFit params
  | .answer _ params => paramsFit params
  | .adjust _ params => paramsFit params
  | .tare _ params => paramsFit params
  | .clearFault _ params => paramsFit params
  | .setBowlConfig _ params => paramsFit params
  | .calibrateZero _ params => paramsFit params
  | .calibrateSpan _ params => paramsFit params
  | .abortCalibration _ params => paramsFit params
  | .saveCalibration _ params => paramsFit params
  | .setPowerCap _ params => paramsFit params
  | .setArbitration _ params => paramsFit params
  | .badFrame _ bytes => isBadFrame bytes
  | .unknownRequest x code params => paramsFit params && (ownerOf code.toNat x.port params).isNone
  | .emptyTransfer _ _ => true
  | .powerOn => true
  | .resetPinAssert => true
  | .resetPinRelease => true
  | .autoloadComplete _ => true
  | .loadCellConversion _ _ => true
  | .holdOffExpiry _ => true
  | .temperatureConversion _ _ => true
  | .relaySettleExpiry _ => true
  | .configSettleExpiry _ => true
  | .tachoMeasurement _ _ => true
  | .standstillTimerExpiry _ => true
  | .stallTimerExpiry _ => true
  | .lockTimerExpiry _ => true
  | .rampStep _ => true
  | .intervalPhaseChange _ => true
  | .switchLevelChange _ _ _ => true
  | .lidChange _ _ => true
  | .confirmSwitchChange _ _ => true
  | .switchFirstReading _ _ _ => true
  | .zeroCrossArrival _ => true
  | .gapTimerExpiry => true
  | .timeExpiry _ => true
  | .holdLimitExpiry _ => true
  | .endPendingCompletion _ => true
  | .eepromPageWriteDone _ => true
  | .eepromPageTimeout => true
  | .portReady _ => true

end Sys2Proof
end

