-- ==== Sys2Proof/Decode.lean ====
section
/-! DEFINITION. The decoder. The part has no instruction words: no row of spec/opcode_table.json gives bits. What it decodes
is the bytes of a transfer (R157, R159 to R162); the encoder beside it gives the bytes that a port command is sent as. -/

namespace Sys2Proof

open Sys2Proof.Machine

/-- The command a word of the opcode table spells: none, since no row of the table gives its bits. -/
def decodeTableWord (_nbits _w : Nat) : Option Instr := none

/-- The request of a code of the table of R162, or none. -/
def requestOf (code : Byte) (x : Xfer) (params : List Byte) : Option Instr :=
  match code.toNat with
  | 0x00 => some (.nop x params)
  | 0x01 => some (.getStatus x params)
  | 0x02 => some (.readPage x params)
  | 0x03 => some (.getNotices x params)
  | 0x04 => some (.ackNotice x params)
  | 0x05 => some (.setNotice x params)
  | 0x06 => some (.setThreshold x params)
  | 0x07 => some (.resetPort x params)
  | 0x10 => some (.openRecipe x params)
  | 0x11 => some (.writeStep x params)
  | 0x12 => some (.sealRecipe x params)
  | 0x13 => some (.discardRecipe x params)
  | 0x14 => some (.unloadRecipe x params)
  | 0x15 => some (.listRecipes x params)
  | 0x20 => some (.start x params)
  | 0x21 => some (.manual x params)
  | 0x22 => some (.pause x params)
  | 0x23 => some (.resume x params)
  | 0x24 => some (.stop x params)
  | 0x25 => some (.skipStep x params)
  | 0x26 => some (.answer x params)
  | 0x27 => some (.adjust x params)
  | 0x28 => some (.tare x params)
  | 0x29 => some (.clearFault x params)
  | 0x2A => some (.setBowlConfig x params)
  | 0x30 => some (.calibrateZero x params)
  | 0x31 => some (.calibrateSpan x params)
  | 0x32 => some (.abortCalibration x params)
  | 0x33 => some (.saveCalibration x params)
  | 0x40 => some (.setPowerCap x params)
  | 0x41 => some (.setArbitration x params)
  | _ => none

/-- The command that a transfer of these whole bytes is on a port: no byte, a bad frame, a request of the table, or an unknown
request (R157, R160, R161). Bytes after the frame are fill (R159). -/
def commandOfTransfer (p : PortId) (bytes : List Byte) : Instr :=
  if bytes.isEmpty then .emptyTransfer p 0
  else
    match frameOf (bytes.take 40) bytes.length with
    | none => .badFrame p bytes
    | some (code, tag, params) =>
      let x : Xfer := ⟨p, tag, bytes.length - (params.length + 5)⟩
      (requestOf code x params).getD (.unknownRequest x code params)

/-- The code, transfer and parameters of a request command, or none for a command that is no request. -/
def Instr.requestParts (i : Instr) : Option (Byte × Xfer × List Byte) :=
  match i with
  | .nop x params => some (0x00, x, params)
  | .getStatus x params => some (0x01, x, params)
  | .readPage x params => some (0x02, x, params)
  | .getNotices x params => some (0x03, x, params)
  | .ackNotice x params => some (0x04, x, params)
  | .setNotice x params => some (0x05, x, params)
  | .setThreshold x params => some (0x06, x, params)
  | .resetPort x params => some (0x07, x, params)
  | .openRecipe x params => some (0x10, x, params)
  | .writeStep x params => some (0x11, x, params)
  | .sealRecipe x params => some (0x12, x, params)
  | .discardRecipe x params => some (0x13, x, params)
  | .unloadRecipe x params => some (0x14, x, params)
  | .listRecipes x params => some (0x15, x, params)
  | .start x params => some (0x20, x, params)
  | .manual x params => some (0x21, x, params)
  | .pause x params => some (0x22, x, params)
  | .resume x params => some (0x23, x, params)
  | .stop x params => some (0x24, x, params)
  | .skipStep x params => some (0x25, x, params)
  | .answer x params => some (0x26, x, params)
  | .adjust x params => some (0x27, x, params)
  | .tare x params => some (0x28, x, params)
  | .clearFault x params => some (0x29, x, params)
  | .setBowlConfig x params => some (0x2A, x, params)
  | .calibrateZero x params => some (0x30, x, params)
  | .calibrateSpan x params => some (0x31, x, params)
  | .abortCalibration x params => some (0x32, x, params)
  | .saveCalibration x params => some (0x33, x, params)
  | .setPowerCap x params => some (0x40, x, params)
  | .setArbitration x params => some (0x41, x, params)
  | .unknownRequest x code params => some (code, x, params)
  | .badFrame _ _ => none
  | .emptyTransfer _ _ => none
  | .powerOn => none
  | .resetPinAssert => none
  | .resetPinRelease => none
  | .autoloadComplete _ => none
  | .loadCellConversion _ _ => none
  | .holdOffExpiry _ => none
  | .temperatureConversion _ _ => none
  | .relaySettleExpiry _ => none
  | .configSettleExpiry _ => none
  | .tachoMeasurement _ _ => none
  | .standstillTimerExpiry _ => none
  | .stallTimerExpiry _ => none
  | .lockTimerExpiry _ => none
  | .rampStep _ => none
  | .intervalPhaseChange _ => none
  | .switchLevelChange _ _ _ => none
  | .lidChange _ _ => none
  | .confirmSwitchChange _ _ => none
  | .switchFirstReading _ _ _ => none
  | .zeroCrossArrival _ => none
  | .gapTimerExpiry => none
  | .timeExpiry _ => none
  | .holdLimitExpiry _ => none
  | .endPendingCompletion _ => none
  | .eepromPageWriteDone _ => none
  | .eepromPageTimeout => none
  | .portReady _ => none

/-- The port and the bytes a port command is sent as: its request frame and then its fill bytes (R159), or the bytes of a bad
frame, or none for an empty transfer. A command that is no transfer has no bytes. -/
def encodeTransfer (i : Instr) : Option (PortId × List Byte) :=
  match i with
  | .badFrame p bytes => some (p, bytes)
  | .emptyTransfer p _ => some (p, [])
  | _ => i.requestParts.map (fun r => (r.2.1.port, requestFrame r.1 r.2.1.tag r.2.2 ++ List.replicate r.2.1.fill 0))

end Sys2Proof
end

