-- ==== Sys2Proof/Machine/Dispatch.lean ====
section
/-! DEFINITION. The meaning of every command: one arm for each constructor of Instr. -/

namespace Sys2Proof.Machine

open Sys2Proof

/-- The effect of a command on everything but the queue. -/
def exec (i : Instr) (s : State) : Host.Outcome State Fault Refusal :=
  match i with
  | .nop x params => Sys2Proof.Machine.execNop x params s
  | .getStatus x params => Sys2Proof.Machine.execGetStatus x params s
  | .readPage x params => Sys2Proof.Machine.execReadPage x params s
  | .getNotices x params => Sys2Proof.Machine.execGetNotices x params s
  | .ackNotice x params => Sys2Proof.Machine.execAckNotice x params s
  | .setNotice x params => Sys2Proof.Machine.execSetNotice x params s
  | .setThreshold x params => Sys2Proof.Machine.execSetThreshold x params s
  | .resetPort x params => Sys2Proof.Machine.execResetPort x params s
  | .openRecipe x params => Sys2Proof.Machine.execOpenRecipe x params s
  | .writeStep x params => Sys2Proof.Machine.execWriteStep x params s
  | .sealRecipe x params => Sys2Proof.Machine.execSealRecipe x params s
  | .discardRecipe x params => Sys2Proof.Machine.execDiscardRecipe x params s
  | .unloadRecipe x params => Sys2Proof.Machine.execUnloadRecipe x params s
  | .listRecipes x params => Sys2Proof.Machine.execListRecipes x params s
  | .start x params => Sys2Proof.Machine.execStart x params s
  | .manual x params => Sys2Proof.Machine.execManual x params s
  | .pause x params => Sys2Proof.Machine.execPause x params s
  | .resume x params => Sys2Proof.Machine.execResume x params s
  | .stop x params => Sys2Proof.Machine.execStop x params s
  | .skipStep x params => Sys2Proof.Machine.execSkipStep x params s
  | .answer x params => Sys2Proof.Machine.execAnswer x params s
  | .adjust x params => Sys2Proof.Machine.execAdjust x params s
  | .tare x params => Sys2Proof.Machine.execTare x params s
  | .clearFault x params => Sys2Proof.Machine.execClearFault x params s
  | .setBowlConfig x params => Sys2Proof.Machine.execSetBowlConfig x params s
  | .calibrateZero x params => Sys2Proof.Machine.execCalibrateZero x params s
  | .calibrateSpan x params => Sys2Proof.Machine.execCalibrateSpan x params s
  | .abortCalibration x params => Sys2Proof.Machine.execAbortCalibration x params s
  | .saveCalibration x params => Sys2Proof.Machine.execSaveCalibration x params s
  | .setPowerCap x params => Sys2Proof.Machine.execSetPowerCap x params s
  | .setArbitration x params => Sys2Proof.Machine.execSetArbitration x params s
  | .badFrame p bytes => Sys2Proof.Machine.execBadFrame p bytes s
  | .unknownRequest x code params => Sys2Proof.Machine.execUnknownRequest x code params s
  | .emptyTransfer p bits => Sys2Proof.Machine.execEmptyTransfer p bits s
  | .powerOn => Sys2Proof.Machine.execPowerOn s
  | .resetPinAssert => Sys2Proof.Machine.execResetPinAssert s
  | .resetPinRelease => Sys2Proof.Machine.execResetPinRelease s
  | .autoloadComplete r => Sys2Proof.Machine.execAutoloadComplete r s
  | .loadCellConversion b sample => Sys2Proof.Machine.execLoadCellConversion b sample s
  | .holdOffExpiry b => Sys2Proof.Machine.execHoldOffExpiry b s
  | .temperatureConversion b code => Sys2Proof.Machine.execTemperatureConversion b code s
  | .relaySettleExpiry b => Sys2Proof.Machine.execRelaySettleExpiry b s
  | .configSettleExpiry b => Sys2Proof.Machine.execConfigSettleExpiry b s
  | .tachoMeasurement b pulses => Sys2Proof.Machine.execTachoMeasurement b pulses s
  | .standstillTimerExpiry b => Sys2Proof.Machine.execStandstillTimerExpiry b s
  | .stallTimerExpiry b => Sys2Proof.Machine.execStallTimerExpiry b s
  | .lockTimerExpiry b => Sys2Proof.Machine.execLockTimerExpiry b s
  | .rampStep b => Sys2Proof.Machine.execRampStep b s
  | .intervalPhaseChange b => Sys2Proof.Machine.execIntervalPhaseChange b s
  | .switchLevelChange b sw level => Sys2Proof.Machine.execSwitchLevelChange b sw level s
  | .lidChange b level => Sys2Proof.Machine.execLidChange b level s
  | .confirmSwitchChange b level => Sys2Proof.Machine.execConfirmSwitchChange b level s
  | .switchFirstReading b sw level => Sys2Proof.Machine.execSwitchFirstReading b sw level s
  | .zeroCrossArrival since => Sys2Proof.Machine.execZeroCrossArrival since s
  | .gapTimerExpiry => Sys2Proof.Machine.execGapTimerExpiry s
  | .timeExpiry b => Sys2Proof.Machine.execTimeExpiry b s
  | .holdLimitExpiry b => Sys2Proof.Machine.execHoldLimitExpiry b s
  | .endPendingCompletion b => Sys2Proof.Machine.execEndPendingCompletion b s
  | .eepromPageWriteDone acked => Sys2Proof.Machine.execEepromPageWriteDone acked s
  | .eepromPageTimeout => Sys2Proof.Machine.execEepromPageTimeout s
  | .portReady p => Sys2Proof.Machine.execPortReady p s

end Sys2Proof.Machine
end

