-- ==== Sys2Proof/Machine/Tick.lean ====
section
/-! DEFINITION. One millisecond of the part's own clock, which passes when no command waits (assumption log entry 1). Every
running timer counts; a timer that has run out puts its expiry at the end of the queue, where it is taken as any other command
is. What only the appliance can bring (conversions, tacho counts, zero-crosses, switch levels, the EEPROM) comes from outside. -/

namespace Sys2Proof.Machine

open Sys2Proof

/-- A count of tenths of a second and its milliseconds, one millisecond later; the tenths stay at `top`. -/
def tenthTick (top tenths ms : Nat) : Nat × Nat := if 99 ≤ ms then (min (tenths + 1) top, 0) else (tenths, ms + 1)

/-- A running timer one millisecond later. -/
def countDown (t : Option Nat) : Option Nat := t.map (fun left => left - 1)

/-- `i` as the one command of a list when `c` holds. -/
def emitIf (c : Bool) (i : Instr) : List Instr := if c then [i] else []

/-! ## One millisecond in each unit -/

/-- A running hold one millisecond later (R53). -/
def Hold.tick (h : Hold) (ms : Nat) : Hold × Nat :=
  let t := tenthTick (h.limit * 600) h.timer ms
  ({ h with timer := t.1 }, t.2)

/-- The step timer counts while RUNNING, the hold timer while HOLDING (R33, R53). -/
def RunContext.tick (r : RunContext) : RunContext :=
  match r.state with
  | .running =>
    let t := tenthTick 16777215 r.stepTimer r.stepMs
    { r with stepTimer := t.1, stepMs := t.2 }
  | .holding =>
    match r.hold with
    | some h => { r with hold := some (h.tick r.holdMs).1, holdMs := (h.tick r.holdMs).2 }
    | none => r
  | .idle => r
  | .paused => r
  | .calibrating => r
  | .fault => r

/-- The hold-off timer counts (R68). -/
def Channel.tick (c : Channel) : Channel := { c with holdOff := countDown c.holdOff }

/-- The relay settle and the config settle count (R97, R103). -/
def HeatUnit.tick (h : HeatUnit) : HeatUnit :=
  { h with settle := h.settle.map (fun st => { st with left := st.left - 1 }), configSettle := countDown h.configSettle }

/-- A standstill timer counts (R107). -/
def Standstill.tick : Standstill → Standstill
  | .timing left => .timing (left - 1)
  | .reached => .reached
  | .notReached => .notReached

/-- A switch filter counts (R108). -/
def SwitchInput.tick (i : SwitchInput) : SwitchInput := { i with filter := i.filter.map (fun f => (f.1, f.2 - 1)) }

/-- Whether a STIR order with pattern INTERVAL is in force, and its on and off times (R110). -/
def StirUnit.intervalTimes (u : StirUnit) : Option (Nat × Nat) :=
  match u.order with
  | .stir _ _ interval => interval
  | .speedZero => none
  | .forcedOff => none

/-- The timers of a stirring and lid unit count; the phase timer only under a STIR order with INTERVAL (R107, R108, R110,
R113, R116). -/
def StirUnit.tick (u : StirUnit) : StirUnit :=
  let phase := if u.intervalTimes.isSome then tenthTick 300 u.phaseTimer u.phaseMs else (u.phaseTimer, u.phaseMs)
  { u with
    phaseTimer := phase.1
    phaseMs := phase.2
    standstill := u.standstill.tick
    stall := countDown u.stall
    lid := u.lid.tick
    confirm := u.confirm.tick
    lockTimer := countDown u.lockTimer
    rampMs := u.rampMs + 1 }

/-- The gap timer and the time since the last zero-cross count (R123, R125). -/
def Arbiter.tick (x : Arbiter) : Arbiter :=
  { x with gap := countDown x.gap, sinceCross := x.sinceCross.map (fun us => us + 1000) }

/-- The time a page write has left counts (R154). -/
def ImageUnit.tick (i : ImageUnit) : ImageUnit := { i with save := i.save.map (fun j => { j with left := j.left - 1 }) }

/-- The timers of a bowl's blocks count. -/
def Bowl.tick (x : Bowl) : Bowl :=
  { x with run := x.run.tick, weigh := x.weigh.tick, heat := x.heat.tick, stir := x.stir.tick }

/-! ## The expiries that have come -/

/-- The change that a switch filter that has run out brings (R108). -/
def SwitchInput.due (i : SwitchInput) (change : SwitchLevel → Instr) : List Instr :=
  match i.filter with
  | some (level, 0) => [change level]
  | _ => []

/-- Whether the phase timer has reached the time of the phase (R110). -/
def StirUnit.phaseDue (u : StirUnit) : Bool :=
  match u.intervalTimes with
  | some (on, off) => decide ((if u.phaseOn then on else off) ≤ u.phaseTimer)
  | none => false

/-- The expiries of a stirring and lid unit. -/
def StirUnit.due (u : StirUnit) (b : BowlId) : List Instr :=
  emitIf (decide (u.stall = some 0)) (.stallTimerExpiry b) ++ emitIf (decide (u.lockTimer = some 0)) (.lockTimerExpiry b) ++
    emitIf (decide (u.standstill = .timing 0)) (.standstillTimerExpiry b) ++
    emitIf u.phaseDue (.intervalPhaseChange b) ++ emitIf (decide (10 ≤ u.rampMs)) (.rampStep b) ++
    u.lid.due (.lidChange b) ++ u.confirm.due (.confirmSwitchChange b)

/-- The expiries of a heating unit. -/
def HeatUnit.due (h : HeatUnit) (b : BowlId) : List Instr :=
  emitIf (decide (h.settle.map Settle.left = some 0)) (.relaySettleExpiry b) ++
    emitIf (decide (h.configSettle = some 0)) (.configSettleExpiry b)

/-- Whether the step timer has just reached the duration in force plus the extension (R33). -/
def RunContext.timeDue (r : RunContext) : Bool :=
  match r.step.durationInForce with
  | some d => decide (r.state = .running ∧ r.stepMs = 0 ∧ r.stepTimer = d + r.extension)
  | none => false

/-- Whether the hold timer has reached the hold limit (R53). -/
def RunContext.holdDue (r : RunContext) : Bool :=
  match r.hold with
  | some h => decide (r.state = .holding ∧ h.limit * 600 ≤ h.timer)
  | none => false

/-- The expiries of a step engine (R33, R37, R53). -/
def RunContext.due (r : RunContext) (b : BowlId) : List Instr :=
  emitIf r.timeDue (.timeExpiry b) ++ emitIf r.holdDue (.holdLimitExpiry b) ++
    emitIf (r.endPending && decide (r.state = .running)) (.endPendingCompletion b)

/-- The expiries of a bowl's blocks, in a fixed order. -/
def Bowl.due (x : Bowl) (b : BowlId) : List Instr :=
  x.stir.due b ++ x.heat.due b ++ emitIf (decide (x.weigh.holdOff = some 0)) (.holdOffExpiry b) ++ x.run.due b

/-- Every expiry that has come, and the readiness of ports 10 µs after their last release (R171). -/
def State.due (s : State) : List Instr :=
  s.bowls.one.due .one ++ s.bowls.two.due .two ++ emitIf (decide (s.arbiter.gap = some 0)) .gapTimerExpiry ++
    emitIf (decide (s.image.save.map SaveJob.left = some 0)) .eepromPageTimeout ++
    emitIf (!s.ports.portA.ready) (.portReady .portA) ++ emitIf (!s.ports.portB.ready) (.portReady .portB)

/-- All timers one millisecond later. -/
def State.count (s : State) : State :=
  { s with
    bowls := ⟨s.bowls.one.tick, s.bowls.two.tick⟩
    arbiter := s.arbiter.tick
    image := s.image.tick }

/-- One millisecond without a command: the timers count and their expiries join the queue. Nothing counts while the RESET pin
holds every block at its starting values. -/
def State.tick (s : State) : State :=
  if s.inReset then s else { s.count with pending := s.pending ++ s.count.due }

end Sys2Proof.Machine
end

