-- ==== Sys2Proof/Safety.lean ====
section
/-! DEFINITION. The terms that statements about the part use: when a port takes a transfer, what an answered request leaves,
and the invariants of a safe run. -/

namespace Sys2Proof.Machine

open Sys2Proof

/-! ## Transfers and answers -/

/-- A port takes a transfer: the RESET pin is not asserted and the port is ready (R156, R171). -/
def State.takes (s : State) (p : PortId) : Prop := s.inReset = false ∧ (s.ports.get p).ready = true

/-- A port between two transfers keeps no received bytes (R157). -/
def Port.empty (q : Port) : Prop := q.rx = [] ∧ q.rxCount = 0

/-- The first `n` bytes a port's data output sends: its pending response from the output position, or the none response, and
then fill bytes of value 0xFF (R157, R158). -/
def Port.sends (q : Port) (n : Nat) : List Byte :=
  (List.range n).map (fun i => (q.response.getD .noneResponse).frame.getD (q.outPos + i) 0xFF)

/-- A port after a transfer of `n` whole bytes whose request got this response (R157, R158, R171). -/
def Port.after (q : Port) (n : Nat) (r : Response) : Port := ⟨[], 0, some r, 0, false, q.sends n⟩

/-- `u` once the port of a request has been released with this answer pending. -/
def State.answered (u : State) (x : Xfer) (params : List Byte) (st : Status) (results : List Byte) : State :=
  u.setPort x.port ((u.ports.get x.port).after (params.length + 5 + x.fill) ⟨x.tag, st, results⟩)

/-! ## The motor, the lid and the lock (R109, R111) -/

/-- A stirring unit whose motor is safe: with the lid OPEN its target and setpoint are 0, and with the lock not CONFIRMED they
are at most 1,200 rpm. A lid switch that has not been read yet is OPEN. -/
def StirUnit.Safe (u : StirUnit) : Prop :=
  (u.lid.firstRead = false → u.lid.level = .opened) ∧
    (u.lid.level = .opened → u.target = 0 ∧ u.setpoint = 0) ∧
    (u.lock ≠ .confirmed → u.target ≤ 1200 ∧ u.setpoint ≤ 1200)

/-- Both motors are safe. -/
def State.MotorsSafe (s : State) : Prop := s.bowls.one.stir.Safe ∧ s.bowls.two.stir.Safe

/-! ## The over-temperature latch (R85) -/

/-- A bowl whose over-temperature latch is set is in FAULT with both relays open, no stage and no posted demand. -/
def Bowl.LatchHeld (x : Bowl) : Prop :=
  x.heat.latch = true →
    x.run.state = .fault ∧ x.heat.relayMain = .opened ∧ x.heat.relayKeep = .opened ∧ x.heat.settle = none ∧
      x.heat.active = none ∧ x.heat.posted = 0

/-- Both bowls hold their latches so. -/
def State.LatchesHeld (s : State) : Prop := s.bowls.one.LatchHeld ∧ s.bowls.two.LatchHeld

/-! ## The recipe store (R7, R8) -/

/-- Whether an extent contains a step address. -/
def Extent.covers (e : Extent) (a : Nat) : Bool := decide (e.start ≤ a) && decide (a < e.start + e.length)

/-- Whether the extent of a table entry contains a step address. -/
def Entry.covers : Entry → Nat → Bool
  | .free, _ => false
  | .loading _ _ start length _ _, a => Extent.covers ⟨start, length⟩ a
  | .ready _ start length _ _, a => Extent.covers ⟨start, length⟩ a

/-- How many free extents and recipe extents contain a step address. -/
def Store.coverCount (st : Store) (a : Nat) : Nat :=
  st.free.countP (fun e => e.covers a) + st.table.toList.countP (fun e => e.covers a)

/-- The length of a table entry's recipe, none in FREE. -/
def Entry.steps : Entry → Option Nat
  | .free => none
  | .loading _ _ _ length _ _ => some length
  | .ready _ _ length _ _ => some length

/-- A sound store: the recipe extents and the free extents cover the 256 step slots exactly once each and nothing beyond
them; the free-extent list is in ascending order, no two entries overlapping or adjacent and none empty; no recipe is empty; and
step memory is in its canonical form. -/
structure Store.Sound (st : Store) : Prop where
  covered : ∀ a, st.coverCount a = if a < 256 then 1 else 0
  apart : st.free.Pairwise (fun e f => e.start + e.length < f.start)
  nonempty : ∀ e ∈ st.free, 0 < e.length
  steps : ∀ slot n, (st.entry slot).steps = some n → 0 < n
  mem : StepMemory.wf st.mem = true

/-! ## User sets (R13, R42) -/

/-- Whether a table entry's user set contains a bowl. -/
def Entry.usedBy : Entry → BowlId → Bool
  | .ready _ _ _ users _, b => users.get b
  | .loading _ _ _ _ _ _, _ => false
  | .free, _ => false

/-- The user sets match the runs: a slot's user set contains exactly the bowls whose run source is that slot, and a bowl in
IDLE or CALIBRATING has no run source. -/
def State.UsersMatch (s : State) : Prop :=
  (∀ b n, (s.bowl b).run.source = .slot n ↔ (s.store.entry n).usedBy b = true) ∧
    ∀ b, (s.bowl b).run.state = .idle ∨ (s.bowl b).run.state = .calibrating → (s.bowl b).run.source = .noRun

/-! ## What a step engine's handings leave in the units (R32, R87 to R90, R94, R97, R106, R109, R112) -/

/-- The stage that the table of R94 gives for a STEP order. -/
def StageMode.stepStage (m : StageMode) : Element := if m = .keepOnly then .keep else .main

/-- The relays, the relay settle and the pending switch are the same. -/
def HeatUnit.SameStage (h g : HeatUnit) : Prop :=
  g.relayMain = h.relayMain ∧ g.relayKeep = h.relayKeep ∧ g.settle = h.settle ∧ g.pendingSwitch = h.pendingSwitch

/-- What a STEP order leaves of a heating unit `h` (R87 to R90, R94, R97 to R99). The target in force is the part's target with
the offset, between 30.0 and 180.0 °C, and the ramp limit at most 50 (R88). Without a ramp limit the effective target is the target
in force; with one it goes on from the effective target held, or starts at the measured temperature between 30.0 and 180.0 °C
(R89). A new step fixes the T direction and takes T reported back (R90). With both relays OPEN the stage of R94 begins its relay
settle of 60 ms (R97), unless the latch is set (R85); otherwise the relays stay, except where the stage mode calls for the other
stage. Nothing else changes. A request during a settle is as assumption log entry 13 says, the remainder and the AUTO counts at a
handing without a ramp as entry 27. -/
structure HeatUnit.TakesStep (h : HeatUnit) (mode : StageMode) (isNew : Bool) (p : HeatPart) (offset : Option Int)
    (g : HeatUnit) : Prop where
  order : g.order = .step p.target p.ramp offset
  target : g.target = some (max 300 (min 1800 (p.target + offset.getD 0)))
  rampLimit : g.rampLimit = p.ramp.map (fun r => min r 50)
  unramped : p.ramp = none → g.effective = g.target
  goesOn : p.ramp.isSome → (isNew = true → h.ordered = true) → ∀ e, h.effective = some e → g.effective = some e
  starts : p.ramp.isSome → h.effective = none ∨ (isNew = true ∧ h.ordered = false) →
    g.effective = some (match h.temp with
      | some t => max 300 (min 1800 t)
      | none => 300)
  remainder : g.rampRemainder = if isNew = true ∨ p.ramp = none ∨ h.effective = none then 0 else h.rampRemainder
  newStep : isNew = true →
    (g.tDirection = .rising ↔ ∃ t, h.temp = some t ∧ t < max 300 (min 1800 (p.target + offset.getD 0))) ∧
      g.tReported = false ∧ g.lowCount = 0 ∧ g.highCount = 0
  continuation : isNew = false → g.tDirection = h.tDirection ∧ g.tReported = h.tReported
  latched : h.latch = true → h.SameStage g
  selects : h.latch = false → h.relayMain = .opened → h.relayKeep = .opened →
    g.settle = some ⟨mode.stepStage, 60⟩ ∧ g.pendingSwitch = h.pendingSwitch ∧
      ∀ e, g.relay e = if e = mode.stepStage then .settling else .opened
  stays : h.latch = false → h.relayMain ≠ .opened ∨ h.relayKeep ≠ .opened →
    ∀ a, h.active = some a → mode = .auto ∨ a = mode.stepStage →
      h.SameStage g ∧ (isNew = false → g.lowCount = h.lowCount ∧ g.highCount = h.highCount)
  switches : h.latch = false → h.relayMain ≠ .opened ∨ h.relayKeep ≠ .opened → h.settle = none →
    ∀ a, h.active = some a → mode ≠ .auto → a ≠ mode.stepStage →
      g.settle = some ⟨mode.stepStage, 60⟩ ∧ g.pendingSwitch = h.pendingSwitch ∧
        ∀ e, g.relay e = if e = mode.stepStage then .settling else h.relay e
  waits : h.latch = false → h.relayMain ≠ .opened ∨ h.relayKeep ≠ .opened →
    h.active = none ∨ (∃ a, h.active = some a ∧ mode ≠ .auto ∧ a ≠ mode.stepStage) →
    ∀ st, h.settle = some st →
      { h with pendingSwitch := if mode.stepStage = st.toward then none else some mode.stepStage }.SameStage g
  rest : { g with
    order := h.order, target := h.target, effective := h.effective, rampLimit := h.rampLimit
    rampRemainder := h.rampRemainder, tDirection := h.tDirection, tReported := h.tReported, lowCount := h.lowCount
    highCount := h.highCount, relayMain := h.relayMain, relayKeep := h.relayKeep, settle := h.settle
    pendingSwitch := h.pendingSwitch } = h

/-- What a no-heat order, other than one from the end of a run, leaves of a heating unit `h`: no order, no target, both relays
OPEN, no settle, stage, pending switch or posted demand, the AUTO counts 0, and everything else as it was (R87). -/
def HeatUnit.Rests (h g : HeatUnit) : Prop :=
  g =
    { h with
      order := .noHeat, target := none, effective := none, rampLimit := none, relayMain := .opened, relayKeep := .opened
      settle := none, pendingSwitch := none, active := none, posted := 0, lowCount := 0, highCount := 0 }

/-- What a STIR order leaves of a stirring unit `u` (R106, R109, R110, R112). Speed and times are held clamped (R106). A new step
with INTERVAL starts its pattern afresh, and otherwise phase and timer stay (R110). The direction of the part is the direction
in effect: at once at standstill with the setpoint 0, and otherwise by a reversal (R112). The target comes of the stages of R109, an
absent hot-bowl reading limiting as one above 60.0 °C does, and the setpoint is not raised. `limited` says that a clamp or a limit was made. Nothing else changes. -/
structure StirUnit.TakesStir (u : StirUnit) (isNew : Bool) (p : StirPart) (g : StirUnit) (limited : Bool) : Prop where
  order : g.order = .stir (min p.speed 9600) p.dir (p.interval.map (fun t => (5 * min t.1 60, 5 * min t.2 60)))
  phase : if isNew = true ∧ p.interval.isSome then g.phaseOn = true ∧ g.phaseTimer = 0
    else g.phaseOn = u.phaseOn ∧ g.phaseTimer = u.phaseTimer
  direction : g.directionInEffect = p.dir
  same : p.dir = u.directionInEffect → u.pendingDir = none →
    g.drive = u.drive ∧ g.pendingDir = none ∧ g.reversalHold = u.reversalHold
  atOnce : p.dir ≠ u.directionInEffect → u.pendingDir = none → u.standstill = .reached → u.setpoint = 0 →
    g.drive = p.dir ∧ g.pendingDir = none ∧ g.reversalHold = u.reversalHold
  reverses : p.dir ≠ u.directionInEffect → u.pendingDir = none → u.standstill ≠ .reached →
    g.drive = u.drive ∧ g.pendingDir = some p.dir ∧ g.reversalHold = true
  abandons : ∀ d, u.pendingDir = some d → p.dir ≠ d → p.dir = u.drive →
    g.drive = u.drive ∧ g.pendingDir = none ∧ g.reversalHold = false
  target :
    let phase := if g.reversalHold = true ∨ u.mainsHold = true ∨ (p.interval.isSome ∧ g.phaseOn = false) then 0
      else min p.speed 9600
    let free := if u.lid.level = .opened then 0 else if 600 < u.hot.getD 601 then min phase 3000 else phase
    let lock := min free (u.ceiling.getD free)
    g.target = (if g.lock = .confirmed then lock else min lock 1200) ∧ (g.target < phase → limited = true)
  setpoint : g.setpoint ≤ u.setpoint
  clamps : 9600 < p.speed ∨ (∃ on off, p.interval = some (on, off) ∧ (60 < on ∨ 60 < off)) → limited = true
  rest : { g with
    order := u.order, phaseOn := u.phaseOn, phaseTimer := u.phaseTimer, phaseMs := u.phaseMs, drive := u.drive
    pendingDir := u.pendingDir, reversalHold := u.reversalHold, target := u.target, setpoint := u.setpoint, stall := u.stall
    lock := u.lock, lockTimer := u.lockTimer } = u

/-- What a SPEED_ZERO order leaves of a stirring unit `u`: the target is 0, the direction in effect is kept, and the setpoint is
not raised (R106, R109). A formation may complete a reversal and release the lock; nothing else changes. -/
structure StirUnit.Rests (u g : StirUnit) : Prop where
  order : g.order = .speedZero
  target : g.target = 0
  setpoint : g.setpoint ≤ u.setpoint
  direction : g.directionInEffect = u.directionInEffect
  rest : { g with
    order := u.order, drive := u.drive, pendingDir := u.pendingDir, reversalHold := u.reversalHold, target := u.target
    setpoint := u.setpoint, stall := u.stall, lock := u.lock, lockTimer := u.lockTimer } = u

/-- What the handing of a step's heat and stir parts leaves of a bowl (R32): a heat part is a STEP order, and its absence no heat;
a stir part, at the speed of the override where there is one, is a STIR order, an override alone a STIR order FORWARD and
CONTINUOUS, and the absence of both SPEED_ZERO. A clamp or limit sets L (R35, R88). -/
structure Bowl.TakesParts (x y : Bowl) (isNew : Bool) (st : Step) (offset : Option Int) (override : Option Nat) : Prop where
  heat : ∀ p, st.heat = some p → x.heat.TakesStep x.cal.values.mode isNew p offset y.heat
  noHeat : st.heat = none → x.heat.Rests y.heat
  heatClamps : ∀ p, st.heat = some p →
    p.target + offset.getD 0 < 300 ∨ 1800 < p.target + offset.getD 0 ∨ (∃ r, p.ramp = some r ∧ 50 < r) →
      y.run.flags.l = true
  stir : ∀ p, st.stir = some p → ∃ limited,
    x.stir.TakesStir isNew { p with speed := override.getD p.speed } y.stir limited ∧ (limited = true → y.run.flags.l = true)
  overrideAlone : ∀ v, st.stir = none → override = some v → ∃ limited,
    x.stir.TakesStir isNew ⟨v, .forward, none⟩ y.stir limited ∧ (limited = true → y.run.flags.l = true)
  noStir : st.stir = none → override = none → x.stir.Rests y.stir

/-- What the entry of a step leaves in the units of its bowl (R31, R32): its parts handed as a new step without overrides, or no
heat and speed 0 where the bowl is paused; its weigh part armed in either case, with its target at most 5,000 g, or the channel
unarmed (R71, R73). -/
structure Bowl.TakesEntry (x y : Bowl) (paused : Bool) (st : Step) : Prop where
  parts : paused = false → x.TakesParts y true st none none
  atRest : paused = true → x.heat.Rests y.heat ∧ x.stir.Rests y.stir
  weigh : ∀ w, st.weigh = some w →
    y.weigh =
        { x.weigh with
          part := some ⟨(min w.target 5000 : Nat) * 10, w.tolerance * 10, if w.tareAtEntry then .pending else .captured⟩
          decision := .undecided, mReported := false } ∧
      (5000 < w.target → y.run.flags.l = true)
  unarmed : st.weigh = none → y.weigh = { x.weigh with part := none, decision := .undecided, mReported := false }
  duration : ∀ d, st.duration = some d → 216000 < d → y.run.flags.l = true

/-! ## What the commands of one bowl leave alone -/

/-- The bowl that a request's first parameter names. -/
def firstBowl (params : List Byte) : Option BowlId :=
  match params with
  | pb :: _ => bowlOf pb
  | [] => none

/-- The bowl of a command that steers, measures or times one bowl. A tacho completion is none: it reaches both channels
(R67). -/
def ownBowl (i : Instr) : Option BowlId :=
  match i with
  | .nop _ _ => none
  | .getStatus _ _ => none
  | .readPage _ _ => none
  | .getNotices _ _ => none
  | .ackNotice _ _ => none
  | .setNotice _ _ => none
  | .setThreshold _ _ => none
  | .resetPort _ _ => none
  | .openRecipe _ _ => none
  | .writeStep _ _ => none
  | .sealRecipe _ _ => none
  | .discardRecipe _ _ => none
  | .unloadRecipe _ _ => none
  | .listRecipes _ _ => none
  | .start _ params => firstBowl params
  | .manual _ params => firstBowl params
  | .pause _ params => firstBowl params
  | .resume _ params => firstBowl params
  | .stop _ params => firstBowl params
  | .skipStep _ params => firstBowl params
  | .answer _ params => firstBowl params
  | .adjust _ params => firstBowl params
  | .tare _ params => firstBowl params
  | .clearFault _ params => firstBowl params
  | .setBowlConfig _ params => firstBowl params
  | .calibrateZero _ params => firstBowl params
  | .calibrateSpan _ params => firstBowl params
  | .abortCalibration _ params => firstBowl params
  | .saveCalibration _ _ => none
  | .setPowerCap _ _ => none
  | .setArbitration _ _ => none
  | .badFrame _ _ => none
  | .unknownRequest _ _ _ => none
  | .emptyTransfer _ _ => none
  | .powerOn => none
  | .resetPinAssert => none
  | .resetPinRelease => none
  | .autoloadComplete _ => none
  | .loadCellConversion b _ => some b
  | .holdOffExpiry b => some b
  | .temperatureConversion b _ => some b
  | .relaySettleExpiry b => some b
  | .configSettleExpiry b => some b
  | .tachoMeasurement _ _ => none
  | .standstillTimerExpiry b => some b
  | .stallTimerExpiry b => some b
  | .lockTimerExpiry b => some b
  | .rampStep b => some b
  | .intervalPhaseChange b => some b
  | .switchLevelChange b _ _ => some b
  | .lidChange b _ => some b
  | .confirmSwitchChange b _ => some b
  | .switchFirstReading b _ _ => some b
  | .zeroCrossArrival _ => none
  | .gapTimerExpiry => none
  | .timeExpiry b => some b
  | .holdLimitExpiry b => some b
  | .endPendingCompletion b => some b
  | .eepromPageWriteDone _ => none
  | .eepromPageTimeout => none
  | .portReady _ => none

/-- A table entry with no user. -/
def Entry.withoutUsers : Entry → Entry
  | .ready id start length _ weighs => .ready id start length ⟨false, false⟩ weighs
  | .loading id owner start length written fault => .loading id owner start length written fault
  | .free => .free

/-- `t` differs from `s` in bowl `b`, its notices and its membership of user sets only, the ports apart. -/
structure State.OnlyBowl (s t : State) (b : BowlId) : Prop where
  other : t.bowl (otherBowl b) = s.bowl (otherBowl b)
  mem : t.store.mem = s.store.mem
  free : t.store.free = s.store.free
  entries : ∀ n, (t.store.entry n).withoutUsers = (s.store.entry n).withoutUsers
  users : ∀ n, (t.store.entry n).usedBy (otherBowl b) = (s.store.entry n).usedBy (otherBowl b)
  image : t.image = s.image
  arbiter : t.arbiter = s.arbiter
  inReset : t.inReset = s.inReset
  resets : t.resets = s.resets
  draws : t.draws = s.draws
  settings : ∀ p, { t.notices.get p with flags := (s.notices.get p).flags } = s.notices.get p
  raised : ∀ p c, (s.notices.get p).flags.getLsbD (Cause.number c) = true →
    (t.notices.get p).flags.getLsbD (Cause.number c) = true
  causes : ∀ p c, (∀ k, c ≠ Cause.ofBowl b k) →
    (t.notices.get p).flags.getLsbD c.number = (s.notices.get p).flags.getLsbD c.number

end Sys2Proof.Machine
end

