-- ==== Sys2Proof/Certificates/Slice0/Obligations.lean ====
section
/-! DEFINITION. The statements about the model, for the provers. A statement of what a command does gives the state it leaves,
either whole, so that everything not named in it is unchanged, or field by field with what stays as it was. -/

open Sys2Proof Sys2Proof.Machine

/-! ## The queue, reset and the ports -/

/-- A step takes the command at the front of the queue and runs it with the rest of the queue left waiting. With no command
waiting, a step counts every running timer one millisecond on and appends the expiries that have come; in reset nothing
counts. This is the model's choice (assumption log entry 1). -/
def Obligations.StepTakesFrontCommandOrCounts : Prop :=
  (∀ (c : Instr) (rest : List Instr) (s : State),
      s.pending = c :: rest → step s = exec c { s with pending := rest }) ∧
    (∀ s : State, s.pending = [] →
      (s.inReset = true → step s = .next s) ∧
        (s.inReset = false → step s = .next { s.count with pending := s.count.due }))

/-- Every command answers a next state in every state; that no command changes the queue, power-on and reset included, is the
model's choice (assumption log entries 1 and 11). -/
def Obligations.EveryCommandCompletesAndKeepsQueue : Prop :=
  ∀ (c : Instr) (s : State), ∃ t, exec c s = .next t ∧ t.pending = s.pending

/-- Power-on and both changes of the RESET pin leave every block at its starting values (R144, R156). While the RESET pin is
asserted no command but power-on and the pin's own changes has any effect (R26, R59, R81, R105, R122, R141, R156). The model's
choices in it: the queue is kept and a release of a pin that is not asserted changes nothing (assumption log entry 11), and the
model's reset counter moves on, so that step memory is undefined anew (R7; assumption log entry 3). -/
def Obligations.PowerAndResetRestartAndHold : Prop :=
  (∀ s : State,
      let started : State := { State.reset with resets := s.resets + 1, draws := s.draws, pending := s.pending }
      exec .powerOn s = .next started ∧
        exec .resetPinAssert s = .next { started with inReset := true } ∧
        (s.inReset = true → exec .resetPinRelease s = .next started) ∧
        (s.inReset = false → exec .resetPinRelease s = .next s)) ∧
    (∀ (c : Instr) (s : State), s.inReset = true →
      c ≠ .powerOn → c ≠ .resetPinAssert → c ≠ .resetPinRelease → exec c s = .next s)

/-- What reset leaves in the blocks of each bowl (R26, R59, R81, R105, R141). What reset leaves in the shared blocks (R8,
R11, R122, R141, R156, R173); that no expiry of the gap timer is overtaken is the model's own field at the model's choice (assumption
log entry 12). -/
def Obligations.ResetLeavesStartingValues : Prop :=
  (∀ b : BowlId,
      let x := State.reset.bowl b
      let r := x.run
      let c := x.weigh
      let h := x.heat
      let u := x.stir
      let k := x.cal
      (r.state = .idle ∧ r.source = .noRun ∧ r.record = none ∧ r.stepIndex = none ∧ r.loops = [] ∧ r.flags.code = 0 ∧
          r.stepTimer = 0 ∧ r.endPending = false ∧ r.offset = none ∧ r.speedOverride = none ∧ r.extension = 0 ∧
          r.prompt = none ∧ r.pauses = ⟨false, false, false⟩ ∧ r.resume = none ∧ r.hold = none ∧ r.capture = none) ∧
        (c.filter = none ∧ c.reloadPending = true ∧ c.massAvailable = false ∧ c.mass = 0 ∧ c.overload = false ∧
          c.tarePoint = 0 ∧ c.window = [] ∧ c.stable = false ∧ c.disturbed = false ∧ c.seen = ⟨0, 0⟩ ∧ c.holdOff = none ∧
          c.part = none ∧ c.decision = .undecided ∧ c.mReported = false) ∧
        (h.temp = none ∧ h.sensorOut = false ∧ h.latch = false ∧ h.order = .noHeat ∧ h.target = none ∧ h.effective = none ∧
          h.rampLimit = none ∧ h.rampRemainder = 0 ∧ h.tDirection = .rising ∧ h.tReported = false ∧ h.integral = 0 ∧
          h.lastError = 0 ∧ h.computed = 0 ∧ h.posted = 0 ∧ h.shortLast = false ∧ h.active = none ∧ h.relayMain = .opened ∧
          h.relayKeep = .opened ∧ h.settle = none ∧ h.pendingSwitch = none ∧ h.lowCount = 0 ∧ h.highCount = 0 ∧ h.grant = 0 ∧
          h.grantStage = none ∧ h.holdDefault = 60 ∧ h.configSettle = none) ∧
        (u.order = .speedZero ∧ u.phaseOn = true ∧ u.phaseTimer = 0 ∧ u.drive = .forward ∧ u.pendingDir = none ∧
          u.reversalHold = false ∧ u.mainsHold = true ∧ u.ceiling = none ∧ u.target = 0 ∧ u.setpoint = 0 ∧ u.measured = 0 ∧
          u.standstill = .reached ∧ u.stall = none ∧ u.lid.level = .opened ∧ u.confirm.level = .opened ∧ u.lock = .released ∧
          u.lockTimer = none ∧ u.hot = none) ∧
        (k.values = ⟨128, 0, 0, 64, 20, 48, 8, 140, 30, .auto⟩ ∧ k.zeroValid = false ∧ k.context = none ∧
          k.lastOutcome = none)) ∧
    (let s := State.reset
    (s.store.free = [⟨0, 256⟩] ∧ ∀ slot, s.store.entry slot = .free) ∧
      (s.arbiter.present = false ∧ s.arbiter.restoration = 0 ∧ s.arbiter.gap = none ∧ s.arbiter.sinceCross = none ∧
        s.arbiter.overtaken = false ∧ s.arbiter.position = none ∧ s.arbiter.sequence = 0 ∧ s.arbiter.rating = 360 ∧
        s.arbiter.cap = 200 ∧ s.arbiter.pendingCap = none ∧ s.arbiter.mode = .fit ∧ s.arbiter.pendingMode = none ∧
        s.arbiter.modeByRequest = false ∧ s.arbiter.pointer = .one ∧ s.arbiter.current = none ∧ s.arbiter.lastEnded = none) ∧
      (s.image.autoload = .inFlight ∧ s.image.save = none ∧ s.image.lastSave = none) ∧
      (∀ p, (s.ports.get p).rx = [] ∧ (s.ports.get p).rxCount = 0 ∧ (s.ports.get p).response = none ∧
        (s.ports.get p).outPos = 0) ∧
      ∀ p, (s.notices.get p).flags = 0 ∧ (s.notices.get p).enables = 0 ∧ (s.notices.get p).threshold = 0 ∧
        ∀ c : Fin 15, (s.notices.get p).priority[c] = 0)

/-- Every request of the table is answered by its owner: the owner's effect is complete, its status and results are the
pending response under the request's tag, and the port has sent its earlier response (R157, R158, R161, R162). -/
def Obligations.RequestAnsweredByItsOwner : Prop :=
  ∀ (i : Instr) (code : Byte) (x : Xfer) (params : List Byte) (owner : State → Reply) (s : State),
    i.wf = true → i.requestParts = some (code, x, params) → ownerOf code.toNat x.port params = some owner →
    s.takes x.port →
      exec i s = .next ((owner s).state.setPort x.port
        ((s.ports.get x.port).after (params.length + 5 + x.fill) ⟨x.tag, (owner s).status, (owner s).results⟩))

/-- A bad frame does not act: the port answers BAD_FRAME with tag 0 and nothing else changes (R160). A request code outside
the table is answered UNKNOWN_REQUEST with its tag, and nothing else changes (R161). -/
def Obligations.BadAndUnknownFramesAnswered : Prop :=
  (∀ (p : PortId) (bytes : List Byte) (s : State),
      isBadFrame bytes = true → s.takes p → (s.ports.get p).empty →
        exec (.badFrame p bytes) s = .next (s.setPort p ((s.ports.get p).after bytes.length ⟨0, .badFrame, []⟩))) ∧
    (∀ (x : Xfer) (code : Byte) (params : List Byte) (s : State),
      (Instr.unknownRequest x code params).wf = true → s.takes x.port → (s.ports.get x.port).empty →
        exec (.unknownRequest x code params) s = .next (s.answered x params .unknownRequest []))

/-- An empty transfer delivers nothing and keeps the pending response from its position; after the 10 µs that follow any
release the port is ready (R157, R171). A transfer framed before its port is ready again delivers nothing and changes nothing
(R171). -/
def Obligations.EmptyAndEarlyTransfersDeliverNothing : Prop :=
  (∀ (p : PortId) (bits : Fin 8) (s : State), s.takes p → (s.ports.get p).empty →
      exec (.emptyTransfer p bits) s = .next (s.setPort p { s.ports.get p with ready := false, sent := [] }) ∧
        ∀ u : State, u.inReset = false →
          exec (.portReady p) u = .next (u.setPort p { u.ports.get p with ready := true })) ∧
    (∀ (i : Instr) (p : PortId) (bytes : List Byte) (s : State),
      encodeTransfer i = some (p, bytes) → s.inReset = false → (s.ports.get p).ready = false → exec i s = .next s)

/-- The bytes a transfer command is sent as are read back as that command: no bit of code, tag, parameters or bad frame is
dropped (R159 to R162). That fill bytes are 0x00 and that a part-byte is not among the bytes, so that an empty transfer is read
back with none, are the model's choices (assumption log entry 5). -/
def Obligations.TransferBytesReadBack : Prop :=
  ∀ (i : Instr) (p : PortId) (bytes : List Byte), i.wf = true → (∀ q bits, i = .emptyTransfer q bits → bits = 0) →
    encodeTransfer i = some (p, bytes) → commandOfTransfer p bytes = i

/-! ## The recipe store -/

/-- OPEN_RECIPE takes the lowest FREE entry and the first fitting extent; its refusals come in the order of R14. The lowest
FREE entry is the least slot of the eight whose entry is FREE (R14). Allocation is first-fit: the first free extent long enough
gives its front, and leaves the list when it fits exactly (R9). -/
def Obligations.OpenRecipeAllocatesFirstFit : Prop :=
  (∀ (x : Xfer) (i1 i0 pl : Byte) (s : State), s.takes x.port →
      let n := pl.toNat
      let ps := [i1, i0, pl]
      ((n < 1 ∨ 128 < n) → exec (.openRecipe x ps) s = .next (s.answered x ps .badParam [])) ∧
        (1 ≤ n → n ≤ 128 → s.store.lowestFree = none → exec (.openRecipe x ps) s = .next (s.answered x ps .noSlot [])) ∧
        (1 ≤ n → n ≤ 128 → s.store.lowestFree.isSome → firstFit s.store.free n = none →
          exec (.openRecipe x ps) s = .next (s.answered x ps .noSpace [])) ∧
        ∀ slot start free, 1 ≤ n → n ≤ 128 → s.store.lowestFree = some slot → firstFit s.store.free n = some (start, free) →
          exec (.openRecipe x ps) s =
            .next (State.answered
              (s.setStore
                { s.store.setEntry slot (.loading (256 * i1.toNat + i0.toNat) x.port start n [] none) with free := free })
              x ps .ok [BitVec.ofNat 8 slot, BitVec.ofNat 8 start])) ∧
    (∀ st : Store,
      match st.lowestFree with
      | none => ∀ n, n < 8 → st.entry n ≠ .free
      | some slot => slot < 8 ∧ st.entry slot = .free ∧ ∀ n, n < slot → st.entry n ≠ .free) ∧
    (∀ (free : List Extent) (n : Nat),
      match firstFit free n with
      | none => ∀ e ∈ free, e.length < n
      | some (start, rest) =>
        ∃ pre e post, free = pre ++ e :: post ∧ (∀ f ∈ pre, f.length < n) ∧ n ≤ e.length ∧ start = e.start ∧
          rest = pre ++ (if e.length = n then post else ⟨e.start + n, e.length - n⟩ :: post))

/-- WRITE_STEP from the owner stores the record at first step address + index, adds the index to the written set, and leaves
every other step slot and everything else as it was (R7, R12, R15). -/
def Obligations.WriteStepStoresRecord : Prop :=
  ∀ (x : Xfer) (ps pi : Byte) (bytes : List Byte) (s : State) (id start length : Nat) (written : List Nat)
    (fault : Option SealFault),
    s.takes x.port → ps.toNat < 8 → bytes.length = 22 →
    s.store.entry ps.toNat = .loading id x.port start length written fault → pi.toNat < length →
    recordOk (recordOfBytes bytes) = true →
      ∃ t, exec (.writeStep x (ps :: pi :: bytes)) s = .next t ∧
        (∀ a, t.recordAt a = if a = start + pi.toNat then recordOfBytes bytes else s.recordAt a) ∧
        t.store.table = (s.store.setEntry ps.toNat (.loading id x.port start length (addIndex written pi.toNat) fault)).table ∧
        t.store.free = s.store.free ∧
        t.bowls = s.bowls ∧ t.image = s.image ∧ t.arbiter = s.arbiter ∧ t.notices = s.notices ∧
        t.ports = (s.answered x (ps :: pi :: bytes) .ok [BitVec.ofNat 8 (addIndex written pi.toNat).length]).ports

/-- SEAL_RECIPE from the owner makes the recipe READY with an empty user set when validation passes, and otherwise records
the fault and answers INVALID_RECIPE with it (R16), index and reason code in one byte each, which is the model's choice (assumption
log entry 35). A failing seal reports the lowest index with a fault and the first of that index's faults; a recipe with no fault at
any index passes (R20). -/
def Obligations.SealRecipeReportsLowestFault : Prop :=
  (∀ (x : Xfer) (ps : Byte) (s : State) (id start length : Nat) (written : List Nat) (fault : Option SealFault),
      s.takes x.port → ps.toNat < 8 → s.store.entry ps.toNat = .loading id x.port start length written fault →
        let steps := s.loadingSteps start length written
        let weighs := steps.any (fun st => st.weigh.isSome)
        (validate written steps = none →
          exec (.sealRecipe x [ps]) s =
            .next (State.answered
              (s.setStore (s.store.setEntry ps.toNat (.ready id start length ⟨false, false⟩ weighs))) x [ps] .ok
              [if weighs then 1 else 0])) ∧
          ∀ f, validate written steps = some f →
            exec (.sealRecipe x [ps]) s =
              .next (State.answered
                (s.setStore (s.store.setEntry ps.toNat (.loading id x.port start length written (some f)))) x [ps]
                .invalidRecipe [BitVec.ofNat 8 f.index, BitVec.ofNat 8 f.reason.code])) ∧
    (∀ (written : List Nat) (steps : List Step),
      let faults (i : Nat) (st : Step) := faultAt written (loopWalk steps) steps.length i st
      (∀ f, validate written steps = some f →
        (∃ st, steps[f.index]? = some st ∧ faults f.index st = some f.reason) ∧
          ∀ j st, j < f.index → steps[j]? = some st → faults j st = none) ∧
        (validate written steps = none → ∀ j st, steps[j]? = some st → faults j st = none))

/-- DISCARD_RECIPE from the owner and UNLOAD_RECIPE of a recipe in no bowl's use free the entry and return its extent; an
UNLOAD_RECIPE of a recipe in use is refused with IN_USE (R21, R22). -/
def Obligations.RecipesRemoved : Prop :=
  ∀ (x : Xfer) (ps : Byte) (s : State) (id start length : Nat), s.takes x.port → ps.toNat < 8 →
    (∀ written fault, s.store.entry ps.toNat = .loading id x.port start length written fault →
      exec (.discardRecipe x [ps]) s =
        .next (State.answered (s.setStore (s.store.freeEntry ps.toNat start length)) x [ps] .ok [])) ∧
      (∀ weighs, s.store.entry ps.toNat = .ready id start length ⟨false, false⟩ weighs →
        exec (.unloadRecipe x [ps]) s =
          .next (State.answered (s.setStore (s.store.freeEntry ps.toNat start length)) x [ps] .ok [])) ∧
      ∀ users weighs, s.store.entry ps.toNat = .ready id start length users weighs → (users.one ∨ users.two) →
        exec (.unloadRecipe x [ps]) s = .next (s.answered x [ps] .inUse [])

/-- RESET_PORT returns the port's notice state to its starting values and discards every LOADING recipe the port owns; READY
recipes, the other port's recipes and its notice state stay (R23, R169). -/
def Obligations.ResetPortTaken : Prop :=
  ∀ (x : Xfer) (s : State), s.takes x.port →
    ∃ t, exec (.resetPort x []) s = .next t ∧
      (∀ slot, t.store.entry slot =
        match s.store.entry slot with
        | .loading id owner start length written fault =>
          if owner = x.port then .free else .loading id owner start length written fault
        | .ready id start length users weighs => .ready id start length users weighs
        | .free => .free) ∧
      t.store.mem = s.store.mem ∧ t.notices = s.notices.set x.port .initial ∧ t.bowls = s.bowls ∧ t.image = s.image ∧
      t.arbiter = s.arbiter ∧ t.ports = (s.answered x [] .ok []).ports

/-! ## Reading the part -/

/-- The requests that read change nothing and answer OK with what they read; a read of page 0 moves the model's draw counter,
from which its two fields without a stated value come (R24, R165 to R168, R175; assumption log entry 4). The status block has
39 bytes, the pages 89, 11, 28 and 59, the notice state 11, and the recipe list 73 and two for each free extent (R24, R165,
R167, R168, R175). Bytes and bits within them to which the spec gives no value are the model's choices (assumption log entries 15,
34 and 36). -/
def Obligations.ReadsAnswerWithWholeReadouts : Prop :=
  (∀ (x : Xfer) (s : State), s.takes x.port →
      exec (.nop x []) s = .next (s.answered x [] .ok []) ∧
        exec (.listRecipes x []) s = .next (s.answered x [] .ok s.store.listing) ∧
        exec (.getNotices x []) s = .next (s.answered x [] .ok (s.notices.get x.port).listing) ∧
        ∀ pb b, bowlOf pb = some b →
          exec (.getStatus x [pb]) s = .next (s.answered x [pb] .ok (s.statusBlock b)) ∧
            exec (.readPage x [pb, 0]) s =
              .next (State.answered { s with draws := s.draws + 5 } x [pb, 0] .ok (s.page0 b s.freeBytes)) ∧
            exec (.readPage x [pb, 1]) s = .next (s.answered x [pb, 1] .ok (s.page1 b)) ∧
            exec (.readPage x [pb, 2]) s = .next (s.answered x [pb, 2] .ok (s.page2 b)) ∧
            exec (.readPage x [pb, 3]) s = .next (s.answered x [pb, 3] .ok s.page3)) ∧
    (∀ (s : State) (b : BowlId) (p : PortId),
      (s.statusBlock b).length = 39 ∧ (s.page0 b s.freeBytes).length = 89 ∧ (s.page1 b).length = 11 ∧
        (s.page2 b).length = 28 ∧ s.page3.length = 59 ∧ (s.notices.get p).listing.length = 11 ∧
        s.store.listing.length = 73 + 2 * s.store.free.length)

/-! ## Running a recipe -/

/-- START of a READY recipe at an admitted index, with the lid closed or the start step lid-free: the bowl runs that slot at that
index with a cleared step timer and condition word, S left as it stood and L set by a clamp, joins the slot's user set, and STEP is
noticed at both ports (R29, R31). The heating unit is handed the step's heat part as a new STEP order, or no heat, the stirring unit
its stir part or speed 0, and the channel is armed with its weigh part or left unarmed (R32, R71, R87 to R90, R94, R97, R106, R109,
R112). With mains absent it is PAUSED with cause MAINS, with no heat and speed 0 handed and the weigh part armed (R31). With the lid
open and a start step that is not lid-free it is refused with INTERLOCK (R28, R29). The model's choices in what a STEP order and
no heat leave: what it requests during a relay settle (assumption log entry 13), and the ramp limit, the ramp remainder and the AUTO
counts at a handing without a ramp (assumption log entry 27). -/
def Obligations.StartBeginsRun : Prop :=
  ∀ (x : Xfer) (pb ps pi : Byte) (b : BowlId) (s : State) (id start length : Nat) (users : PerBowl Bool) (weighs : Bool),
    s.takes x.port → bowlOf pb = some b → ps.toNat < 8 → s.image.autoload ≠ .inFlight →
    (s.bowl b).run.state = .idle → (s.bowl b).heat.configSettle = none →
    s.store.entry ps.toNat = .ready id start length users weighs →
    startIndexOk (s.readySteps start length) pi.toNat = true →
    (weighs = true → (s.bowl b).cal.values.gain ≠ 0) →
    let free := ((s.readySteps start length).getD pi.toNat .blank).lidFree none none (s.bowl b).heat.temp
    ((s.bowl b).stir.lid.level = .opened → free = false →
      exec (.start x [pb, ps, pi]) s = .next (s.answered x [pb, ps, pi] .interlock [])) ∧
      ((s.bowl b).stir.lid.level = .closed ∨ free = true →
      ∃ t, exec (.start x [pb, ps, pi]) s = .next t ∧
        (let r := (t.bowl b).run
         let w := r.flags
         r.state = (if s.arbiter.present then .running else .paused) ∧ r.pauses = ⟨false, false, !s.arbiter.present⟩ ∧
          r.source = .slot ps.toNat ∧ r.stepIndex = some pi.toNat ∧
          r.record.map InForce.bytes = some (s.recordAt (start + pi.toNat)) ∧ r.stepTimer = 0 ∧
          (w.t, w.m, w.o, w.b, w.y, w.n) = (false, false, false, false, false, false) ∧ w.s = (s.bowl b).run.flags.s) ∧
        (s.bowl b).TakesEntry (t.bowl b) (!s.arbiter.present) (Step.ofRecord (s.recordAt (start + pi.toNat))) ∧
        (t.bowl b).cal = (s.bowl b).cal ∧
        (t.store.entry ps.toNat).usedBy b = true ∧
        (∀ p, (t.notices.get p).flags.getLsbD (Cause.ofBowl b .step).number = true) ∧
        t.bowl (otherBowl b) = s.bowl (otherBowl b) ∧ t.arbiter = s.arbiter ∧ t.image = s.image ∧
        t.store.mem = s.store.mem ∧ t.ports = (s.answered x [pb, ps, pi] .ok []).ports)

/-- MANUAL with fields inside their encodings, on an IDLE bowl with the lid closed or a lid-free synthetic step: the bowl runs
the synthetic step with no step index, ended by its duration and then by FINISH, and the recipe store is not touched (R30, R31). The
heat target and the stir speed and direction that the presence bits name are handed to the units as a new STEP order and a new
CONTINUOUS STIR order, an absent one as no heat or speed 0, and no weigh part is armed; with mains absent the bowl is PAUSED and no
heat and speed 0 are handed (R30 to R32, R87 to R90, R94, R97, R106, R109, R112). With the lid open and a synthetic step that is
not lid-free it is refused with INTERLOCK (R28, R30). What a STEP order and no heat leave holds the model's choices of assumption
log entries 13 and 27. -/
def Obligations.ManualBeginsRun : Prop :=
  ∀ (x : Xfer) (pb pp t1 t0 v1 v0 pd d2 d1 d0 : Byte) (b : BowlId) (s : State) (rec : Record),
    s.takes x.port → bowlOf pb = some b →
    manualRecord pp.toNat (256 * t1.toNat + t0.toNat) (256 * v1.toNat + v0.toNat) pd.toNat
      (65536 * d2.toNat + 256 * d1.toNat + d0.toNat) = some rec →
    s.image.autoload ≠ .inFlight → (s.bowl b).run.state = .idle → (s.bowl b).heat.configSettle = none →
    let free := (Step.ofRecord rec).lidFree none none (s.bowl b).heat.temp
    let ps := [pb, pp, t1, t0, v1, v0, pd, d2, d1, d0]
    ((s.bowl b).stir.lid.level = .opened → free = false →
      exec (.manual x ps) s = .next (s.answered x ps .interlock [])) ∧
      ((s.bowl b).stir.lid.level = .closed ∨ free = true →
      ∃ t, exec (.manual x ps) s = .next t ∧
        (let r := (t.bowl b).run
         r.state = (if s.arbiter.present then .running else .paused) ∧ r.source = .manual ∧ r.stepIndex = none ∧
          r.record = some ⟨rec, none⟩ ∧ r.stepTimer = 0 ∧ r.loops = [] ∧
          r.step.duration = some (65536 * d2.toNat + 256 * d1.toNat + d0.toNat) ∧ r.step.flow = .finish ∧
          r.step.triggers = ⟨true, false, false, false⟩ ∧
          r.step.heat = (if pp.toNat.testBit 0 then some ⟨5 * (256 * t1.toNat + t0.toNat : Nat), none⟩ else none) ∧
          r.step.stir =
            (if pp.toNat.testBit 1 then
              some ⟨20 * (256 * v1.toNat + v0.toNat), if pd.toNat = 1 then .reverse else .forward, none⟩
            else none) ∧
          r.step.weigh = none) ∧
        (s.bowl b).TakesEntry (t.bowl b) (!s.arbiter.present) (Step.ofRecord rec) ∧ (t.bowl b).cal = (s.bowl b).cal ∧
        t.bowl (otherBowl b) = s.bowl (otherBowl b) ∧ t.store = s.store ∧ t.arbiter = s.arbiter ∧ t.image = s.image ∧
        t.ports = (s.answered x ps .ok []).ports)

/-- PAUSE by bowl state: a RUNNING or HOLDING bowl goes to PAUSED with that resume state and keeps its step, timers, prompt and
loops; a PAUSED one gains the cause; any other is refused (R47, R48). -/
def Obligations.PauseByBowlState : Prop :=
  ∀ (x : Xfer) (pb : Byte) (b : BowlId) (s : State), s.takes x.port → bowlOf pb = some b →
    let r := (s.bowl b).run
    let entered (back : ResumeState) (t : State) : Prop :=
      let q := (t.bowl b).run
      q.state = .paused ∧ q.resume = some back ∧ q.pauses = { r.pauses with request := true } ∧ q.record = r.record ∧
        q.stepTimer = r.stepTimer ∧ q.prompt = r.prompt ∧ q.loops = r.loops ∧ q.hold = r.hold ∧ q.endPending = r.endPending ∧
        (t.bowl b).weigh = (s.bowl b).weigh ∧ (t.bowl b).heat.order = .noHeat ∧ (t.bowl b).heat.relayMain = .opened ∧
        (t.bowl b).heat.relayKeep = .opened ∧ (t.bowl b).stir.order = .speedZero ∧
        t.bowl (otherBowl b) = s.bowl (otherBowl b) ∧ t.store = s.store ∧ t.ports = (s.answered x [pb] .ok []).ports
    (r.state = .running → ∃ t, exec (.pause x [pb]) s = .next t ∧ entered .running t) ∧
      (r.state = .holding → ∃ t, exec (.pause x [pb]) s = .next t ∧ entered .holding t) ∧
      (r.state = .paused →
        exec (.pause x [pb]) s =
          .next (State.answered (s.setRun b { r with pauses := { r.pauses with request := true } }) x [pb] .ok [])) ∧
      (r.state = .idle ∨ r.state = .calibrating ∨ r.state = .fault →
        exec (.pause x [pb]) s = .next (s.answered x [pb] .wrongState []))

/-- RESUME with mains present and the lid closed, or a lid-free step to go back to: the pause-cause set empties and the bowl goes
back to its resume state. A step whose triggers are not met goes on, its heat and stir parts handed again with the overrides in force,
as a new step where they have not been handed since its entry and otherwise as a continuation, and its weigh part left alone (R32,
R51, R87 to R90, R94, R97, R106, R109, R112). A hold's target is handed again. With mains absent it is refused with WRONG_STATE, and
with the lid open on a step that is not lid-free, or on a hold, with INTERLOCK (R28, R51). What a STEP order and no heat leave holds
the model's choices of assumption log entries 13 and 27. -/
def Obligations.ResumeReturnsToState : Prop :=
  ∀ (x : Xfer) (pb : Byte) (b : BowlId) (s : State), s.takes x.port → bowlOf pb = some b →
    (s.bowl b).run.state = .paused →
    let r := (s.bowl b).run
    (s.arbiter.present = false → exec (.resume x [pb]) s = .next (s.answered x [pb] .wrongState [])) ∧
      (s.arbiter.present = true → (s.bowl b).stir.lid.level = .opened →
        (r.resume = some .running ∧ (s.bowl b).stepLidFree = false) ∨ r.resume = some .holding →
          exec (.resume x [pb]) s = .next (s.answered x [pb] .interlock [])) ∧
      (s.arbiter.present = true →
        (r.resume = some .running → (s.bowl b).stir.lid.level = .closed ∨ (s.bowl b).stepLidFree = true →
          r.endPending = false → r.step.triggersMet r.stepTimer r.extension r.flags = false →
          ∃ t, exec (.resume x [pb]) s = .next t ∧ (t.bowl b).run.state = .running ∧
            (t.bowl b).run.pauses = ⟨false, false, false⟩ ∧ (t.bowl b).run.resume = none ∧
            (t.bowl b).run.record = r.record ∧ (t.bowl b).run.stepTimer = r.stepTimer ∧
            (s.bowl b).TakesParts (t.bowl b) (!r.partsHanded) r.step r.offset r.speedOverride ∧
            { (t.bowl b).run.flags with l := r.flags.l } = r.flags ∧ (t.bowl b).weigh = (s.bowl b).weigh ∧
            (t.bowl b).cal = (s.bowl b).cal ∧ t.bowl (otherBowl b) = s.bowl (otherBowl b) ∧
            t.ports = (s.answered x [pb] .ok []).ports) ∧
          ∀ h, r.resume = some .holding → r.hold = some h → (s.bowl b).stir.lid.level = .closed →
            ∃ t, exec (.resume x [pb]) s = .next t ∧ (t.bowl b).run.state = .holding ∧
              (t.bowl b).run.pauses = ⟨false, false, false⟩ ∧ (t.bowl b).run.hold = some h ∧
              (t.bowl b).heat.order = .hold h.band.target ∧ t.ports = (s.answered x [pb] .ok []).ports)

/-- STOP of a bowl that is IDLE or has a run forces its outputs to 0 and leaves it IDLE without a notice; a run gives up its
source and keeps the condition word apart from L, the step timer and the fault capture (R42, R57). -/
def Obligations.StopForcesOutputsOff : Prop :=
  ∀ (x : Xfer) (pb : Byte) (b : BowlId) (s : State), s.takes x.port → bowlOf pb = some b →
    let r := (s.bowl b).run
    (r.state = .idle ∨ r.state = .running ∨ r.state = .paused ∨ r.state = .holding) →
      ∃ t, exec (.stop x [pb]) s = .next t ∧
        (let y := t.bowl b
         y.run.state = .idle ∧ y.run.capture = r.capture ∧ y.run.stepTimer = r.stepTimer ∧
          { y.run.flags with l := r.flags.l } = r.flags ∧
          (r.state ≠ .idle → y.run.source = .noRun ∧ y.run.record = none ∧ y.run.loops = [] ∧ y.run.prompt = none) ∧
          y.heat.relayMain = .opened ∧ y.heat.relayKeep = .opened ∧ y.heat.posted = 0 ∧ y.heat.grant = 0 ∧
          y.heat.integral = 0 ∧ y.stir.setpoint = 0 ∧ y.stir.target = 0 ∧ y.stir.pendingDir = none) ∧
        t.bowl (otherBowl b) = s.bowl (otherBowl b) ∧ t.notices = s.notices ∧ t.arbiter = s.arbiter ∧
        t.ports = (s.answered x [pb] .ok []).ports

/-- SKIP_STEP ends a hold as its expiry does, and a step by its loop close and its flow (R38, R46). The loop close of the top loop:
a true break test pops the loop, a remaining count above 1 loops back to the open step with the count one less, a count that
runs out pops it; without a loop close, or with the close of another step, the stack stays (R39). FINISH ends the run with
RUN_END at both ports, NEXT and BRANCH transfer, HOLD enters HOLDING with the band and limit of R52 (R40). A transfer pops the
loops that do not contain its target and the loop that opens at it, enters the target, and pushes the loop that it opens, its
count limited to 250 (R41). -/
def Obligations.SkipStepEndsStep : Prop :=
  (∀ (x : Xfer) (pb : Byte) (b : BowlId) (s : State), s.takes x.port → bowlOf pb = some b →
    let r := (s.bowl b).run
    let closed := loopClose r.step r.stepIndex r.loops r.flags
    let ended (t : State) : Prop :=
      (t.bowl b).run.state = .idle ∧ (t.bowl b).run.source = .noRun ∧ (t.bowl b).weigh.part = none ∧
        (∀ p, (t.notices.get p).flags.getLsbD (Cause.ofBowl b .runEnd).number = true) ∧
        t.ports = (s.answered x [pb] .ok []).ports
    let entered (t : State) (i : Nat) (f : InForce) (loops : List LoopEntry) : Prop :=
      let q := (t.bowl b).run
      q.stepIndex = some i ∧ q.record = some f ∧ q.loops = loops ∧ q.stepTimer = 0 ∧ q.extension = 0 ∧ q.offset = none ∧
        q.speedOverride = none ∧ q.prompt = (Step.ofRecord f.bytes).prompt ∧
        (q.flags.t, q.flags.m, q.flags.o, q.flags.b, q.flags.y, q.flags.n) = (false, false, false, false, false, false) ∧
        (s.arbiter.present = true → (s.bowl b).stir.lid.level = .closed → r.pauses = ⟨false, false, false⟩ →
          q.state = .running) ∧
        (∀ p, (t.notices.get p).flags.getLsbD (Cause.ofBowl b .step).number = true) ∧
        t.ports = (s.answered x [pb] .ok []).ports
    let transferred (i : Nat) : Prop :=
      ∀ f, s.fetch b i = some f →
        ∃ t, exec (.skipStep x [pb]) s = .next t ∧
          entered t i f
            (match (Step.ofRecord f.bytes).loopOpen, f.close with
              | some n, some c => ⟨i, c, min n 250⟩ :: popFor closed.1 i
              | _, _ => popFor closed.1 i)
    (r.state = .holding → ∃ t, exec (.skipStep x [pb]) s = .next t ∧ ended t) ∧
      (∀ i f, r.state = .running → closed.2 = some i → s.fetch b i = some f →
        ∃ t, exec (.skipStep x [pb]) s = .next t ∧ entered t i f closed.1) ∧
      (r.state = .running → closed.2 = none → r.step.flow = .finish →
        ∃ t, exec (.skipStep x [pb]) s = .next t ∧ ended t) ∧
      ∀ i, r.state = .running → closed.2 = none → r.stepIndex = some i →
        (r.step.flow = .next → transferred (i + 1)) ∧
          (∀ flag sense target, r.step.flow = .branch flag sense target →
            transferred (if r.flags.get flag = sense then target else i + 1)) ∧
          ∀ band limit, r.step.flow = .hold band limit →
            let hot := band = .hot ∨ (band = .auto ∧ 800 ≤ (s.bowl b).heat.temp.getD 0)
            ∃ t, exec (.skipStep x [pb]) s = .next t ∧ (t.bowl b).run.state = .holding ∧
              (t.bowl b).run.hold =
                some ⟨if hot then .hot else .warm, if limit = 0 then (s.bowl b).heat.holdDefault else min limit 240, 0⟩ ∧
              (t.bowl b).run.stepIndex = some i ∧ (t.bowl b).run.loops = closed.1 ∧ (t.bowl b).run.offset = none ∧
              (t.bowl b).run.speedOverride = none ∧ (t.bowl b).run.extension = 0 ∧
              (240 < limit → (t.bowl b).run.flags.l = true) ∧ (t.bowl b).weigh.part = none ∧
              (t.bowl b).heat.order = .hold (if hot then 800 else 650) ∧
              (r.step.holdStir = none → (t.bowl b).stir.order = .speedZero) ∧ t.notices = s.notices ∧
              t.ports = (s.answered x [pb] .ok []).ports) ∧
    (∀ (st : Step) (i : Nat) (e : LoopEntry) (rest : List LoopEntry) (w : FlagWord),
      let result := loopClose st (some i) (e :: rest) w
      let broken := ∃ flag sense, st.breakTest = some (flag, sense) ∧ w.get flag = sense
      ((st.loopClose = false ∨ e.closes ≠ i) → result = (e :: rest, none)) ∧
        (st.loopClose = true → e.closes = i → broken → result = (rest, none)) ∧
        (st.loopClose = true → e.closes = i → ¬broken → 1 < e.remaining →
          result = (⟨e.opens, e.closes, e.remaining - 1⟩ :: rest, some e.opens)) ∧
        (st.loopClose = true → e.closes = i → ¬broken → e.remaining ≤ 1 → result = (rest, none))) ∧
    ∀ (loops : List LoopEntry) (t : Nat),
      let inside := loops.filter (fun e => decide (e.opens ≤ t ∧ t ≤ e.closes))
      popFor loops t = if inside.head?.map LoopEntry.opens = some t then inside.tail else inside

/-- ANSWER with the open prompt's code closes the prompt; YES and DONE set Y and NO sets N, and a RUNNING bowl then makes a
trigger evaluation (R44). Without an open prompt it is refused. -/
def Obligations.AnswerClosesPrompt : Prop :=
  ∀ (x : Xfer) (pb pc pr : Byte) (b : BowlId) (s : State), s.takes x.port → bowlOf pb = some b → pc ≠ 0 → pr.toNat ≤ 2 →
    (s.bowl b).run.state ≠ .calibrating →
    let r := (s.bowl b).run
    let w := if pr = 1 then { r.flags with n := true } else { r.flags with y := true }
    (r.prompt = none → exec (.answer x [pb, pc, pr]) s = .next (s.answered x [pb, pc, pr] .promptClosed [])) ∧
      (r.prompt = some pc.toNat → r.state ≠ .running →
        exec (.answer x [pb, pc, pr]) s =
          .next (State.answered (s.setRun b { r with prompt := none, flags := w }) x [pb, pc, pr] .ok [])) ∧
      (r.prompt = some pc.toNat → r.state = .running → r.flags.y = false → r.flags.n = false →
        exec (.answer x [pb, pc, pr]) s =
          .next (State.answered ((s.setRun b { r with prompt := none, flags := w }).evaluate b) x [pb, pc, pr] .ok []))

/-- ADJUST of all three fields on a bowl PAUSED from RUNNING holds the clamped values, sets L where a field was clamped and
answers CLAMPED then, OK otherwise; in RUNNING an extension that leaves the triggers unmet is taken and the step goes on
(R45). -/
def Obligations.AdjustSetsOverrides : Prop :=
  ∀ (x : Xfer) (pb o1 o0 v1 v0 e1 e0 : Byte) (b : BowlId) (s : State), s.takes x.port → bowlOf pb = some b →
    let r := (s.bowl b).run
    let asked := (BitVec.ofNat 16 (256 * o1.toNat + o0.toNat)).toInt
    let speed := 256 * v1.toNat + v0.toNat
    let ext := 256 * e1.toNat + e0.toNat
    let clamped := decide (asked < -200 ∨ 200 < asked ∨ 9600 < speed * 20 ∨ 6000 < ext)
    (r.state = .paused → r.resume = some .running → speed < 512 →
      exec (.adjust x [pb, 7, o1, o0, v1, v0, e1, e0]) s =
        .next (State.answered
          (s.setRun b
            { r with
              offset := some (max (-200) (min 200 asked))
              speedOverride := some (min (speed * 20) 9600)
              extension := min ext 6000
              flags := { r.flags with l := r.flags.l || clamped } })
          x [pb, 7, o1, o0, v1, v0, e1, e0] (if clamped then .clamped else .ok) [])) ∧
      (r.state = .running → (s.bowl b).stir.lid.level = .closed → ext ≤ 6000 →
        r.step.triggersMet r.stepTimer ext r.flags = false →
          exec (.adjust x [pb, 4, o1, o0, v1, v0, e1, e0]) s =
            .next (State.answered (s.setRun b { r with extension := ext }) x [pb, 4, o1, o0, v1, v0, e1, e0] .ok []))

/-- CLEAR_FAULT with no persisting cause clears the latch and ends the run without a notice, keeping the fault capture; with a
persisting cause it is refused (R42, R56, R86). -/
def Obligations.ClearFaultEndsFault : Prop :=
  ∀ (x : Xfer) (pb : Byte) (b : BowlId) (s : State), s.takes x.port → bowlOf pb = some b →
    (s.bowl b).run.state = .fault →
    ((s.bowl b).faultPersists = true → exec (.clearFault x [pb]) s = .next (s.answered x [pb] .persists [])) ∧
      ((s.bowl b).faultPersists = false →
        ∃ t, exec (.clearFault x [pb]) s = .next t ∧
          (let y := t.bowl b
           y.run.state = .idle ∧ y.run.source = .noRun ∧ y.run.capture = (s.bowl b).run.capture ∧ y.heat.latch = false ∧
            y.heat.order = .noHeat ∧ y.heat.relayMain = .opened ∧ y.heat.relayKeep = .opened ∧ y.weigh.part = none) ∧
          t.bowl (otherBowl b) = s.bowl (otherBowl b) ∧ t.notices = s.notices ∧ t.ports = (s.answered x [pb] .ok []).ports)

/-- The timed events of a run: the TIME expiry evaluates the triggers, ending a step with TIME among them under ANY; the hold
limit ends the run with RUN_END; the completion of a step with an empty trigger set ends it while RUNNING (R33, R36, R37, R53).
That the TIME expiry raises the step timer to its due value and that a hold ends whatever its timer shows are the model's choices
(assumption log entry 8), as is that the completion does nothing outside RUNNING (assumption log entry 24). -/
def Obligations.TimedEventsEndSteps : Prop :=
  ∀ (b : BowlId) (s : State), s.inReset = false →
    let r := (s.bowl b).run
    (∀ d, r.state = .running → r.step.durationInForce = some d → r.stepTimer ≤ d + r.extension →
      r.step.triggers.time = true → r.step.all = false →
        let due := d + r.extension
        exec (.timeExpiry b) s =
          .next (State.endStep
            (s.setRun b { r with stepTimer := due, stepMs := if r.stepTimer < due then 0 else r.stepMs }) b)) ∧
      (r.state = .holding →
        ∃ t, exec (.holdLimitExpiry b) s = .next t ∧ (t.bowl b).run.state = .idle ∧ (t.bowl b).run.hold = none ∧
          ∀ p, (t.notices.get p).flags.getLsbD (Cause.ofBowl b .runEnd).number = true) ∧
      (r.state = .running → r.endPending = true → exec (.endPendingCompletion b) s = .next (s.endStep b)) ∧
      (r.state ≠ .running → exec (.endPendingCompletion b) s = .next s)

/-- Whatever the state, a command of one bowl leaves the other bowl, the step slots, the recipes, the other bowl's user sets,
the image, the arbiter, both ports' notice settings and every notice that is not this bowl's as they were, clears no notice,
and touches no port but the one its request came by (R13, R23, R170, R172, R173). -/
def Obligations.CommandsOfOneBowlLeaveTheRest : Prop :=
  ∀ (i : Instr) (b : BowlId) (s t : State), ownBowl i = some b → exec i s = .next t →
    s.OnlyBowl t b ∧
      ∀ p, (∀ code x params, i.requestParts = some (code, x, params) → p ≠ x.port) → t.ports.get p = s.ports.get p

/-! ## Weighing -/

/-- TARE with a stable, calibrated scale makes the tare point the current mass, satisfies a pending tare, answers with the new
tare point and changes nothing else; with S false it is refused (R77). That the added mass stays as the last conversion formed it
until the next one is the model's choice (R70; assumption log entry 33). -/
def Obligations.TareTakesCurrentMass : Prop :=
  ∀ (x : Xfer) (pb : Byte) (b : BowlId) (s : State), s.takes x.port → bowlOf pb = some b →
    s.image.autoload ≠ .inFlight → (s.bowl b).run.state ≠ .calibrating → (s.bowl b).cal.values.gain ≠ 0 →
    let c := (s.bowl b).weigh
    (c.stable = false → exec (.tare x [pb]) s = .next (s.answered x [pb] .unstable [])) ∧
      (c.stable = true →
        exec (.tare x [pb]) s =
          .next (State.answered
            (s.setWeigh b
              { c with tarePoint := c.mass, part := c.part.map (fun a => { a with tare := TareStatus.captured }) })
            x [pb] .ok (s24 c.mass)))

/-- A conversion of a bowl that is not CALIBRATING. In range and calibrated: it loads or filters F, forms the mass from it,
clamped to 12,000.0 g with L set by a clamp, and judges the disturbance (R62, R63, R67); the window takes the mass, at most 16
of them, or is emptied by a disturbance, and S is true exactly with 16 masses within the band (R66); S true captures a pending
tare (R72); the added mass is formed (R70), the decision made (R74), S reported (R69), and a change of M or O starts a trigger
evaluation (R36). Uncalibrated: F is updated, the mass status becomes NONE, the window is emptied and S false (R64). An overload
sample sets overload, empties the window and makes S false, and neither feeds the filter nor captures nor decides (R61). Nothing
else of the part changes. The model's choices in it: the disturbance is judged anew at overload samples and without calibration
too (assumption log entry 17), and the added mass stays as the last conversion with a mass formed it at both of them (assumption
log entry 33). -/
def Obligations.ConversionFormsMass : Prop :=
  ∀ (b : BowlId) (sample : BitVec 24) (s : State), s.inReset = false → (s.bowl b).run.state ≠ .calibrating →
    let x := s.bowl b
    let v := x.cal.values
    let c := x.weigh
    let w := x.run.flags
    let r := sample.toInt
    let disturbed := decide (0 < c.seen.one ∨ 0 < c.seen.two ∨ c.holdOff.isSome)
    let f := match c.reloadPending, c.filter with
      | false, some f => f + roundConv ((r * 256 - f) * v.k) 256
      | _, _ => r * 256
    let m := roundConv ((f - v.zero * 256) * v.gain) (2 ^ 28)
    let mass := max (-120000) (min 120000 m)
    let window := if disturbed then [] else (if 16 ≤ c.window.length then c.window.drop 1 else c.window) ++ [mass]
    (r = -8388608 ∨ r = 8388607 →
      exec (.loadCellConversion b sample) s =
        .next (s.setBowl b
          { x with
            weigh := { c with disturbed := disturbed, overload := true, window := [], stable := false }
            run := { x.run with flags := { w with s := false } } })) ∧
      (r ≠ -8388608 → r ≠ 8388607 → v.gain = 0 →
        exec (.loadCellConversion b sample) s =
          .next (s.setBowl b
            { x with
              weigh :=
                { c with
                  disturbed := disturbed, overload := false, filter := some f, reloadPending := false
                  massAvailable := false, mass := 0, window := [], stable := false }
              run := { x.run with flags := { w with s := false } } })) ∧
      (r ≠ -8388608 → r ≠ 8388607 → v.gain ≠ 0 →
        ∃ stable : Bool, (stable = true ↔ window.length = 16 ∧ ∀ y ∈ window, ∀ z ∈ window, y - z ≤ v.band) ∧
          (let captures := stable = true ∧ c.part.map Armed.tare = some .pending
           let tare := if captures then mass else c.tarePoint
           let formed : Channel :=
            { c with
              disturbed := disturbed, overload := false, filter := some f, reloadPending := false, massAvailable := true
              mass := mass, window := window, stable := stable, tarePoint := tare, added := mass - tare
              part := if captures then c.part.map (fun a => { a with tare := .captured }) else c.part }
           let d := formed.makeDecision
           let w' : FlagWord :=
            { w with
              s := stable, m := d.2.m.getD w.m, o := w.o || d.2.o, l := w.l || decide (m < -120000 ∨ 120000 < m) }
           let after := s.setBowl b { x with weigh := d.1, run := { x.run with flags := w' } }
           exec (.loadCellConversion b sample) s =
            .next (if w'.m = w.m ∧ w'.o = w.o then after else after.evaluate b)))

/-- The decision of a stable conversion with a captured tare (R74): in band exactly from lower to upper, both included, over
above, and what is reported; M is reported set after an in-band decision and clear after low and over. -/
def Obligations.DecisionByAddedMass : Prop :=
  ∀ (c : Channel) (a : Armed), c.part = some a → a.tare = .captured → c.stable = true →
    (c.mReported = true ↔ c.decision = .inBand) →
    let x := c.mass - c.tarePoint
    let d := c.makeDecision
    (x < a.target - a.tolerance →
      d.1.mReported = false ∧ d.2.o = false ∧ d.2.m = if c.mReported then some false else none) ∧
      (a.target - a.tolerance ≤ x → x ≤ a.target + a.tolerance →
        d.1.mReported = true ∧ d.2.o = false ∧ d.2.m = if c.mReported then none else some true) ∧
      (a.target + a.tolerance < x → a.target - a.tolerance ≤ x →
        d.1.mReported = false ∧ d.1.decision = .over ∧ d.2.o = decide (c.decision ≠ .over) ∧
          d.2.m = if c.mReported then some false else none) ∧
      (d.1.mReported = true ↔ d.1.decision = .inBand)

/-! ## Heating -/

/-- A conversion inside the table, up to 200.0 °C or with the latch already set, gives the tabled temperature with straight-line
interpolation, makes the sensor status VALID and hands the reading to the stirring unit, whose formation may set L (R82, R84,
R109). With no heat order nothing else changes. With a STEP or HOLD order the ramp advances (R89), a STEP order within 1.5 °C of
the target in force on the side of its direction reports T once (R90), and a regulation step is made (R91); a T report that
meets the triggers of a RUNNING step ends it before the regulation, which then runs on the order in force afterwards: that order of
the two is the model's choice (assumption log entry 20). A bowl RUNNING with the lid open whose step is no longer lid-free at the new
temperature goes to PAUSED with LID instead (R49). A conversion outside the table keeps the measured temperature; the first in a row
faults the bowl with SENSOR and the code, or adds SENSOR to its further causes, and a further one changes nothing (R54, R55,
R83). -/
def Obligations.TemperatureFromTable : Prop :=
  ∀ (b : BowlId) (code : BitVec 12) (s : State), s.inReset = false →
    let x := s.bowl b
    let h := x.heat
    let j := min ((code.toNat - 96) / 120) 31
    let lo := sensorTable.getD j 0
    let hi := sensorTable.getD (j + 1) 0
    let temp := lo + roundConv (((code.toNat - 96 - 120 * j : Nat) : Int) * (hi - lo)) 120
    let stir := x.stir.hotReading temp
    let limited : RunContext := { x.run with flags := { x.run.flags with l := x.run.flags.l || stir.2 } }
    let free := x.run.step.lidFree x.run.offset x.run.speedOverride (some temp)
    (96 ≤ code.toNat → code.toNat ≤ 3936 → temp ≤ 2000 ∨ h.latch = true → x.run.state = .running →
      x.stir.lid.level = .opened → free = false →
        ∃ t, exec (.temperatureConversion b code) s = .next t ∧ (t.bowl b).run.state = .paused ∧
          (t.bowl b).run.resume = some .running ∧ (t.bowl b).run.pauses = { x.run.pauses with lid := true } ∧
          (t.bowl b).run.record = x.run.record ∧ (t.bowl b).run.stepTimer = x.run.stepTimer ∧
          (t.bowl b).heat.temp = some temp ∧ (t.bowl b).heat.sensorOut = false ∧ (t.bowl b).heat.order = .noHeat ∧
          (t.bowl b).stir.order = .speedZero ∧ (t.bowl b).weigh = x.weigh ∧ t.bowl (otherBowl b) = s.bowl (otherBowl b) ∧
          ∀ p, (t.notices.get p).flags.getLsbD (Cause.ofBowl b .paused).number = true) ∧
      (96 ≤ code.toNat → code.toNat ≤ 3936 → temp ≤ 2000 ∨ h.latch = true →
      (x.run.state = .running → x.stir.lid.level = .opened → free = true) →
        (h.ordered = false →
          exec (.temperatureConversion b code) s =
            .next (s.setBowl b
              { x with heat := { h with temp := some temp, sensorOut := false }, stir := stir.1, run := limited })) ∧
          ∀ t e, h.ordered = true → h.target = some t → h.effective = some e →
            let remainder := h.rampRemainder + h.rampLimit.getD 0
            let moves : Int := (remainder / 60 : Nat)
            let e' := if h.rampLimit = none then e else if e < t then min (e + moves) t else max (e - moves) t
            let reached := decide (h.stepping = true ∧ h.tReported = false ∧
              ((h.tDirection = .rising ∧ t - 15 ≤ temp) ∨ (h.tDirection = .falling ∧ temp ≤ t + 15)))
            let advanced : HeatUnit :=
              { h with
                temp := some temp, sensorOut := false, effective := some e', tReported := h.tReported || reached
                rampRemainder :=
                  if h.rampLimit = none then h.rampRemainder else if e' = t then 0 else remainder % 60 }
            let reported : RunContext :=
              { limited with flags := { limited.flags with t := limited.flags.t || reached } }
            let ends := reached = true ∧ x.run.flags.t = false ∧ x.run.state = .running ∧
              reported.step.triggersMet reported.stepTimer reported.extension reported.flags = true
            (¬ends →
              exec (.temperatureConversion b code) s =
                .next (s.setBowl b { x with heat := advanced.regulate x.cal.values, stir := stir.1, run := reported })) ∧
              (ends →
                exec (.temperatureConversion b code) s =
                  .next (State.regulate
                    (State.endStep (s.setBowl b { x with heat := advanced, stir := stir.1, run := reported }) b) b))) ∧
      (code.toNat < 96 ∨ 3936 < code.toNat →
        (h.sensorOut = true → exec (.temperatureConversion b code) s = .next s) ∧
          (h.sensorOut = false →
            ∃ t, exec (.temperatureConversion b code) s = .next t ∧ (t.bowl b).heat.temp = h.temp ∧
              (t.bowl b).heat.sensorOut = true ∧ (t.bowl b).run.state = .fault ∧
              (x.run.state ≠ .fault →
                (t.bowl b).heat.order = .forcedOff ∧ (t.bowl b).stir.setpoint = 0 ∧ (t.bowl b).weigh.part = none ∧
                (t.bowl b).run.capture = some ⟨.sensor, x.run.state, x.run.source, x.run.stepIndex, x.run.stepTimer,
                  code.toNat, ⟨false, false, false, false⟩⟩) ∧
              (∀ k, x.run.state = .fault → x.run.capture = some k →
                (t.bowl b).run.capture =
                  some (if k.cause = .sensor then k else { k with further := { k.further with sensor := true } })) ∧
              t.bowl (otherBowl b) = s.bowl (otherBowl b) ∧
              ∀ p, (t.notices.get p).flags.getLsbD (Cause.ofBowl b .fault).number = true))

/-- A conversion above 200.0 °C with the latch clear sets the latch, opens both relays with no stage, demand or grant left, and
moves the bowl to FAULT with OVERTEMP captured and noticed at both ports (R54, R85). -/
def Obligations.OverTemperatureLatchesAndFaults : Prop :=
  ∀ (b : BowlId) (code : BitVec 12) (t0 : Int) (s : State), s.inReset = false → (s.bowl b).heat.latch = false →
    (s.bowl b).run.state ≠ .fault → tempOfCode code.toNat = some t0 → 2000 < t0 →
      ∃ t, exec (.temperatureConversion b code) s = .next t ∧
        (let y := t.bowl b
         y.heat.latch = true ∧ y.heat.temp = some t0 ∧ y.heat.relayMain = .opened ∧ y.heat.relayKeep = .opened ∧
          y.heat.active = none ∧ y.heat.posted = 0 ∧ y.heat.grant = 0 ∧ y.heat.settle = none ∧
          y.heat.order = .forcedOff ∧ y.stir.setpoint = 0 ∧ y.weigh.part = none ∧ y.run.state = .fault ∧
          y.run.prompt = none ∧
          y.run.capture = some ⟨.overtemp, (s.bowl b).run.state, (s.bowl b).run.source, (s.bowl b).run.stepIndex,
            (s.bowl b).run.stepTimer, t0, ⟨false, false, false, false⟩⟩) ∧
        t.bowl (otherBowl b) = s.bowl (otherBowl b) ∧
        ∀ p, (t.notices.get p).flags.getLsbD (Cause.ofBowl b .fault).number = true

/-- The PI law of one regulation step: error, proportional term, integral with its hold in a short window, and demand, each with
its limits (R91, R92). -/
def Obligations.RegulationStep : Prop :=
  ∀ (h : HeatUnit) (v : CalValues) (t e : Int), h.temp = some t → h.effective = some e →
    let err := max (-500) (min 500 (e - t))
    let i := if h.shortLast = true ∧ 0 ≤ err then h.integral
      else max 0 (min 5120 (h.integral + roundConv (v.ki * err) 16))
    (h.regulate v).lastError = err ∧ (h.regulate v).integral = i ∧
      ((h.regulate v).computed : Int) = max 0 (min 20 (roundConv (v.kp * err + i) 256)) ∧
      (h.regulate v).posted ≤ 20

/-- The rescaled integral (R96): the ratio of the ratings with convergent rounding, limited to 0 to 5,120, as its three
examples work it; it is made at the expiry of a switch settle, and none is made when a stage is first selected. -/
def Obligations.IntegralRescaledAtStageSwitch : Prop :=
  (∀ (i : Int) (old new : Nat), rescale i old new = max 0 (min 5120 (roundConv (i * old) new))) ∧
    rescale 300 140 30 = 1400 ∧ rescale 21 30 140 = 4 ∧ rescale 1200 140 30 = 5120 ∧
    (∀ (h : HeatUnit) (v : CalValues) (st : Settle) (old : Element), h.settle = some st → h.active = some old →
      (h.settleExpiry v).integral = rescale h.integral (v.rating old) (v.rating st.toward)) ∧
    ∀ (h : HeatUnit) (v : CalValues) (st : Settle), h.settle = some st → h.active = none →
      (h.settleExpiry v).integral = h.integral

/-- The relay settle's expiry with no pending switch closes the relay and makes its stage active; an initial close posts the
computed demand, a switch opens the old relay and posts the demand recomputed from the rescaled integral; the grant in force is
for no stage any more, so that the stage fires nothing before the next window start (R134); only the heating unit changes (R93,
R96, R97, R98; assumption log entry 31). A config settle's expiry only stops it (R103). -/
def Obligations.SettleExpiries : Prop :=
  ∀ (b : BowlId) (s : State), s.inReset = false →
    let h := (s.bowl b).heat
    let v := (s.bowl b).cal.values
    (∀ st, h.settle = some st → h.active = none → h.ordered = true → h.pendingSwitch = none →
      exec (.relaySettleExpiry b) s =
        .next (s.setHeat b
          { h.setRelay st.toward .closed with
            settle := none, active := some st.toward, posted := h.computed, grantStage := none })) ∧
      (∀ st old, h.settle = some st → h.active = some old → old ≠ st.toward → h.ordered = true → h.pendingSwitch = none →
        let i := rescale h.integral (v.rating old) (v.rating st.toward)
        let d := demandOf v.kp h.lastError i
        exec (.relaySettleExpiry b) s =
          .next (s.setHeat b
            { (h.setRelay st.toward .closed).setRelay old .opened with
              settle := none, active := some st.toward, integral := i, computed := d, posted := d, grantStage := none })) ∧
      exec (.configSettleExpiry b) s = .next (s.setHeat b { h with configSettle := none })

/-- SET_BOWL_CONFIG on an IDLE bowl sets stage mode, k, band and hold-limit default, starts the 300 ms config settle and changes
nothing else; while the settle runs it is refused with SETTLING (R102, R103). -/
def Obligations.BowlConfigTaken : Prop :=
  ∀ (x : Xfer) (pb pm k1 k0 pn ph : Byte) (b : BowlId) (mode : StageMode) (s : State), s.takes x.port →
    bowlOf pb = some b → stageModeOf pm.toNat = some mode → 1 ≤ 256 * k1.toNat + k0.toNat → 256 * k1.toNat + k0.toNat ≤ 256 →
    1 ≤ pn.toNat → 1 ≤ ph.toNat → ph.toNat ≤ 240 → s.image.autoload ≠ .inFlight → (s.bowl b).run.state = .idle →
    let y := s.bowl b
    let ps := [pb, pm, k1, k0, pn, ph]
    (y.heat.configSettle.isSome → exec (.setBowlConfig x ps) s = .next (s.answered x ps .settling [])) ∧
      (y.heat.configSettle = none →
        exec (.setBowlConfig x ps) s =
          .next (State.answered
            (s.setBowl b
              { y with
                cal := { y.cal with
                  values := { y.cal.values with mode := mode, k := 256 * k1.toNat + k0.toNat, band := pn.toNat } }
                heat := { y.heat with holdDefault := ph.toNat, configSettle := some 300 } })
            x ps .ok []))

/-! ## Stirring and the lid -/

/-- A tacho completion gives the measured speed, 20 rpm a pulse up to 12,000, hands it to both weighing channels, starts their
hold-off when the last motor comes to 0, stops it for a moving motor, and updates the standstill (R67, R68, R107). The
hold-off timer's expiry only stops it. -/
def Obligations.TachoMeasuresAndDisturbs : Prop :=
  ∀ (b : BowlId) (pulses : Nat) (s : State), s.inReset = false →
    let v := min (pulses * 20) 12000
    (∃ t, exec (.tachoMeasurement b pulses) s = .next t ∧
      (t.bowl b).stir.measured = v ∧ (0 < v → (t.bowl b).stir.standstill = .notReached) ∧
      (v = 0 → (s.bowl b).stir.standstill = .notReached → (t.bowl b).stir.standstill = .timing 300) ∧
      (∀ c, (t.bowl c).weigh.seen = (s.bowl c).weigh.seen.set b v ∧
        (0 < v → (t.bowl c).weigh.holdOff = none) ∧
        (v = 0 → (s.bowl c).weigh.seen = (PerBowl.mk 0 0).set b ((s.bowl c).weigh.seen.get b) →
          0 < (s.bowl c).weigh.seen.get b → (t.bowl c).weigh.holdOff = some 1500)) ∧
      (∀ c, (t.bowl c).weigh =
          { (s.bowl c).weigh with seen := (t.bowl c).weigh.seen, holdOff := (t.bowl c).weigh.holdOff } ∧
        (t.bowl c).heat = (s.bowl c).heat ∧ (t.bowl c).cal = (s.bowl c).cal ∧
        { (t.bowl c).run with flags := (s.bowl c).run.flags } = (s.bowl c).run) ∧
      (t.bowl (otherBowl b)).stir = (s.bowl (otherBowl b)).stir ∧ t.store = s.store ∧ t.image = s.image ∧
      t.arbiter = s.arbiter ∧ t.ports = s.ports ∧ t.notices = s.notices) ∧
      exec (.holdOffExpiry b) s = .next (s.setWeigh b { (s.bowl b).weigh with holdOff := none })

/-- A ramp step moves the setpoint at most 20 rpm toward the target and not past it; where no reversal completes and the lock
is not released by it, nothing else changes but the model's own counter rampMs, which restarts (R111; assumption log entries 2
and 9). The standstill timer's expiry reaches the standstill: with the setpoint at 0 it completes a reversal in flight, so that
the drive direction becomes the pending one (R107, R112). A change of interval phase flips the phase and restarts its timer
while an INTERVAL order is in force (R110); that it does nothing under a CONTINUOUS order is the model's choice (assumption log
entry 9). -/
def Obligations.MotorTimersMoveSetpointAndDirection : Prop :=
  (∀ (b : BowlId) (s : State), s.inReset = false →
      let u := (s.bowl b).stir
      let moved : StirUnit :=
        { u with setpoint := if u.setpoint < u.target then min (u.setpoint + 20) u.target else max (u.setpoint - 20) u.target,
                 rampMs := 0 }
      moved.reversalDone = false → moved.releaseTest = false → exec (.rampStep b) s = .next (s.setStir b moved)) ∧
    (∀ (b : BowlId) (s : State), s.inReset = false →
      let u := (s.bowl b).stir
      (∀ left d, u.standstill = .timing left → u.setpoint = 0 → u.pendingDir = some d →
        ∃ t, exec (.standstillTimerExpiry b) s = .next t ∧ (t.bowl b).stir.standstill = .reached ∧
          (t.bowl b).stir.drive = d ∧ (t.bowl b).stir.pendingDir = none ∧ (t.bowl b).stir.reversalHold = false) ∧
        (∀ speed dir times, u.order = .stir speed dir (some times) →
          ∃ t, exec (.intervalPhaseChange b) s = .next t ∧ (t.bowl b).stir.phaseOn = !u.phaseOn ∧
            (t.bowl b).stir.phaseTimer = 0 ∧ (t.bowl b).stir.order = u.order) ∧
        ∀ speed dir, u.order = .stir speed dir none → exec (.intervalPhaseChange b) s = .next s)

/-- The stall timer's expiry and the lock timer's expiry while ENGAGING move the bowl to FAULT with the motor off: STALL with
the measured speed, LOCK with value 1 and the lock released (R54, R113, R116). -/
def Obligations.StallAndLockTimeoutsFault : Prop :=
  ∀ (b : BowlId) (s : State), s.inReset = false → (s.bowl b).run.state ≠ .fault →
    let u := (s.bowl b).stir
    let faulted (t : State) (cause : FaultCause) (value : Int) : Prop :=
      (t.bowl b).run.state = .fault ∧ (t.bowl b).stir.setpoint = 0 ∧ (t.bowl b).stir.order = .forcedOff ∧
        (t.bowl b).heat.relayMain = .opened ∧ (t.bowl b).heat.relayKeep = .opened ∧
        (t.bowl b).run.capture.map (fun c => (c.cause, c.value)) = some (cause, value) ∧
        ∀ p, (t.notices.get p).flags.getLsbD (Cause.ofBowl b .fault).number = true
    (u.stall.isSome →
      ∃ t, exec (.stallTimerExpiry b) s = .next t ∧ faulted t .stall u.measured ∧ (t.bowl b).stir.stall = none) ∧
      (u.lock = .engaging → u.lockTimer.isSome →
        ∃ t, exec (.lockTimerExpiry b) s = .next t ∧ faulted t .lock 1 ∧ (t.bowl b).stir.lock = .released ∧
          (t.bowl b).stir.lockTimer = none)

/-- A level change at a switch input starts its 20 ms filter, and a level that returns cancels it; an input's first reading
becomes its state without an event (R108). That the first reading drops a filter that runs is the model's choice (assumption log
entry 26). -/
def Obligations.SwitchInputsFiltered : Prop :=
  ∀ (b : BowlId) (level : SwitchLevel) (s : State), s.inReset = false →
    let u := (s.bowl b).stir
    exec (.switchLevelChange b .lid level) s =
        .next (s.setStir b
          { u with lid := { u.lid with filter := if level = u.lid.level then none else some (level, 20) } }) ∧
      exec (.switchLevelChange b .confirm level) s =
        .next (s.setStir b
          { u with confirm := { u.confirm with filter := if level = u.confirm.level then none else some (level, 20) } }) ∧
      (u.lid.firstRead = false →
        exec (.switchFirstReading b .lid level) s = .next (s.setStir b { u with lid := ⟨level, none, true⟩ })) ∧
      (u.confirm.firstRead = false →
        exec (.switchFirstReading b .confirm level) s = .next (s.setStir b { u with confirm := ⟨level, none, true⟩ }))

/-- A lid that opens makes target and setpoint 0; with the lock CONFIRMED the bowl goes to FAULT with LOCK and value 2; a bowl
RUNNING a step that is not lid-free is PAUSED with LID (R49, R108, R115). A lid that closes only re-forms the target. -/
def Obligations.LidOpeningStopsMotor : Prop :=
  ∀ (b : BowlId) (s : State), s.inReset = false →
    let y := s.bowl b
    (y.stir.lid.level = .closed →
      ∃ t, exec (.lidChange b .opened) s = .next t ∧ (t.bowl b).stir.lid.level = .opened ∧ (t.bowl b).stir.target = 0 ∧
        (t.bowl b).stir.setpoint = 0 ∧ t.bowl (otherBowl b) = s.bowl (otherBowl b) ∧
        (y.stir.lock = .confirmed → y.run.state ≠ .fault → (t.bowl b).run.state = .fault ∧
          (t.bowl b).run.capture.map (fun c => (c.cause, c.value)) = some (.lock, 2)) ∧
        (y.stir.lock ≠ .confirmed → y.run.state = .running → y.stepLidFree = false →
          (t.bowl b).run.state = .paused ∧ (t.bowl b).run.pauses = { y.run.pauses with lid := true } ∧
            (t.bowl b).run.resume = some .running)) ∧
      (y.stir.lid.level = .opened →
        exec (.lidChange b .closed) s = .next (s.putStir b (y.stir.lidChanged .closed)))

/-- The confirm switch. Closing confirms an ENGAGING lock; opening returns a CONFIRMED lock to ENGAGING with a fresh 500 ms and
leaves the setpoint at 1,200 rpm or below; after either the lock is RELEASED only where the release test of the formation held,
and otherwise CONFIRMED or ENGAGING. In RELEASED the lock stays so (R111, R113, R114). -/
def Obligations.ConfirmSwitchMovesLock : Prop :=
  ∀ (b : BowlId) (s : State), s.inReset = false →
    let u := (s.bowl b).stir
    (u.lock = .engaging → u.confirm.level = .opened →
      let f := StirUnit.form { u with confirm := ⟨.closed, none, true⟩, lock := .confirmed, lockTimer := none }
      exec (.confirmSwitchChange b .closed) s = .next (s.putStir b f) ∧
        (f.1.lock = .confirmed ∨ (f.1.lock = .released ∧ { f.1 with lock := .confirmed }.releaseTest = true)) ∧
        f.1.lockTimer = none) ∧
      (u.lock = .confirmed → u.confirm.level = .closed →
        let f := StirUnit.form { u with confirm := ⟨.opened, none, true⟩, lock := .engaging, lockTimer := some 500 }
        exec (.confirmSwitchChange b .opened) s = .next (s.putStir b f) ∧
          ((f.1.lock = .engaging ∧ f.1.lockTimer = some 500) ∨
            (f.1.lock = .released ∧ f.1.lockTimer = none ∧ { f.1 with lock := .engaging }.releaseTest = true)) ∧
          f.1.setpoint ≤ 1200) ∧
      ∀ level, u.lock = .released → level ≠ u.confirm.level →
        exec (.confirmSwitchChange b level) s =
          .next (s.putStir b ({ u with confirm := ⟨level, none, true⟩ }, false))

/-! ## The power budget -/

/-- The motor grants of a window (R129): both in full where they fit; otherwise the smaller demand, motor 1 at equal demands,
gets up to half the budget and the other what is left. A motor is short when its grant is below its demand, and the remainder
for the heaters is the budget less the two grants. -/
def Obligations.MotorsServedSmallerFirst : Prop :=
  (∀ budget d1 d2 : Nat,
    let g := motorGrants budget d1 d2
    (d1 + d2 ≤ budget → g = ⟨d1, d2⟩) ∧
      (budget < d1 + d2 → d1 ≤ d2 → g.one = min d1 (budget / 2) ∧ g.two = min d2 (budget - g.one)) ∧
      (budget < d1 + d2 → d2 < d1 → g.two = min d2 (budget / 2) ∧ g.one = min d1 (budget - g.two)) ∧
      g.one + g.two ≤ budget ∧
      (min d1 d2 ≤ budget / 2 → d1 ≤ d2 → g.one = d1) ∧ (min d1 d2 ≤ budget / 2 → d2 ≤ d1 → g.two = d2) ∧
      (d1 = d2 → budget / 2 < d1 → g.one = budget / 2 ∧ g.two = budget - budget / 2) ∧
      ∀ cap, 50 ≤ cap → 1000 ≤ cap * 20) ∧
    ∀ (sequence cap : Nat) (mode : ArbMode) (p : BowlId) (dm : PerBowl Nat) (dh : PerBowl HeaterDemand),
      let a := accountOf sequence cap mode p dm dh
      let g := motorGrants (cap * 20) dm.one dm.two
      a.remainder = cap * 20 - (g.one + g.two) ∧
        ∀ b, (a.motors.get b).grant = g.get b ∧ (a.motorShort.get b = true ↔ g.get b < dm.get b)

/-- The ceiling of a motor (R130): NONE in full, and for a short motor the top speed of the highest band whose window demand
the grant carries, which lies below the speed asked for; with a budget of at least 1,000 a short motor has at least 500. -/
def Obligations.CeilingIsHighestBandCarried : Prop :=
  (∀ demand grant, demand ≤ grant → ceilingFor demand grant = none) ∧
    (∀ demand grant, grant < demand →
      (grant ≤ 299 → ceilingFor demand grant = some 0) ∧
      (300 ≤ grant → grant ≤ 499 → ceilingFor demand grant = some 600) ∧
      (500 ≤ grant → grant ≤ 899 → ceilingFor demand grant = some 3000) ∧
      (900 ≤ grant → grant ≤ 1599 → ceilingFor demand grant = some 6000)) ∧
    (∀ v grant, grant < motorDemand v →
      ∃ c, ceilingFor (motorDemand v) grant = some c ∧ motorDemand c ≤ grant ∧ c < v ∧
        ∀ c', c' ≤ 9600 → motorDemand c' ≤ grant → c' ≤ c) ∧
    (∀ budget d1 d2, 1000 ≤ budget →
      ((motorGrants budget d1 d2).one < d1 → 500 ≤ (motorGrants budget d1 d2).one) ∧
        ((motorGrants budget d1 d2).two < d2 → 500 ≤ (motorGrants budget d1 d2).two))

/-- In every window the grants together are at most the budget, each grant is at most its demand, and the left-over is the
budget less all four grants (R131 to R133, R138). How the pointer and the order of service go (R131, R132): STAY serves the
pointer's heater first and moves on only when it was met; FIT serves the other first exactly when the pointer's does not fit
and the other does, and always moves on. In both modes the heater served first is served from the remainder and the second from what
is left of it: each is granted its demand in full where that fits, and otherwise the amount left divided by its rating, rounded
down; a heater is short when its grant is below its demand (R131, R132). -/
def Obligations.WindowGrantsByBudgetAndMode : Prop :=
  (∀ (sequence cap : Nat) (mode : ArbMode) (pointer : BowlId) (dm : PerBowl Nat) (dh : PerBowl HeaterDemand),
      let a := accountOf sequence cap mode pointer dm dh
      a.budget = cap * 20 ∧
        a.motors.one.grant + a.motors.two.grant + a.heaters.one.grantPower + a.heaters.two.grantPower + a.leftOver = a.budget ∧
        (∀ b, (a.motors.get b).grant ≤ dm.get b ∧ (a.heaters.get b).grant ≤ (dh.get b).posted ∧
          (a.heaters.get b).grantPower = (a.heaters.get b).grant * (dh.get b).rating.getD 0)) ∧
    (∀ (sequence cap : Nat) (mode : ArbMode) (pointer : BowlId) (dm : PerBowl Nat) (dh : PerBowl HeaterDemand),
      let a := accountOf sequence cap mode pointer dm dh
      let rating (b : BowlId) := (dh.get b).rating.getD 0
      let served (b : BowlId) (left : Nat) : Nat :=
        if (dh.get b).posted * rating b ≤ left then (dh.get b).posted else left / rating b
      let first := a.servedFirst
      let second := otherBowl first
      (a.heaters.get first).grant = served first a.remainder ∧
        (a.heaters.get second).grant = served second (a.remainder - (a.heaters.get first).grantPower) ∧
        ∀ b, a.heaterShort.get b = true ↔ (a.heaters.get b).grant < (dh.get b).posted) ∧
    (∀ (sequence cap : Nat) (p : BowlId) (dm : PerBowl Nat) (dh : PerBowl HeaterDemand),
      let stay := accountOf sequence cap .stay p dm dh
      let fit := accountOf sequence cap .fit p dm dh
      stay.servedFirst = p ∧
        stay.pointerAfter = (if (stay.heaters.get p).grant < (dh.get p).posted then p else otherBowl p) ∧
        fit.pointerAfter = otherBowl p ∧
        (fit.servedFirst = otherBowl p ↔
          fit.remainder < (dh.get p).power ∧ (dh.get (otherBowl p)).power ≤ fit.remainder) ∧
        ((dh.get fit.servedFirst).power ≤ fit.remainder →
          (fit.heaters.get fit.servedFirst).grant = (dh.get fit.servedFirst).posted))

/-- A zero-cross with the mains PRESENT restarts the gap timer with 25 ms and advances the position; the units are handed the
new position, and nothing else changes inside a window, but that an expiry of a gap timer that has run out is overtaken (R124; how
the model keeps that in mind: assumption log entry 9). At position 19, and with none, a window starts (R123, R127): each
heating unit takes its grant for the active stage and its short-last-window record (R92), and in AUTO under a STEP order with no
settle in flight counts a window of low demand on MAIN with the ramp complete, or of full demand on KEEP, the tenth low and the
fifth full one starting a switch with both counts 0 and any other window zeroing the count (R95). The pointer moves to the
account's pointer after it (R131, R132), a bowl with a short grant has B set and any other keeps B (R136), the ceiling's
formation may set L (R109; at which of its passes is the model's choice, assumption log entry 21), and BUDGET_SHORT joins both
ports' flags exactly where some grant was short (R137). A position handed to a unit fires the active stage exactly where an
order is in force, the latch clear, the relay CLOSED, the grant for that stage and the position below it (R101). -/
def Obligations.ZeroCrossAdvancesWindow : Prop :=
  ∀ (since : Nat) (s : State), s.inReset = false → s.arbiter.present = true →
    (∀ p, s.arbiter.position = some p → p ≠ 19 →
      exec (.zeroCrossArrival since) s =
        .next (State.handPosition
          { s with arbiter :=
            { s.arbiter with
              gap := some 25, sinceCross := some 0, overtaken := s.arbiter.overtaken || decide (s.arbiter.gap = some 0)
              position := some (p + 1) } } (p + 1))) ∧
      ((s.arbiter.position = none ∨ s.arbiter.position = some 19) →
        ∃ t, exec (.zeroCrossArrival since) s = .next t ∧ t.store = s.store ∧ t.image = s.image ∧ t.ports = s.ports ∧
          t.arbiter.present = true ∧ t.arbiter.position = some 0 ∧ t.arbiter.gap = some 25 ∧
          t.arbiter.sinceCross = some 0 ∧ t.arbiter.overtaken = (s.arbiter.overtaken || decide (s.arbiter.gap = some 0)) ∧
          t.arbiter.sequence = (s.arbiter.sequence + 1) % 65536 ∧ t.arbiter.cap = s.arbiter.pendingCap.getD s.arbiter.cap ∧
          t.arbiter.mode = s.arbiter.pendingMode.getD s.arbiter.mode ∧ t.arbiter.pendingCap = none ∧
          t.arbiter.pendingMode = none ∧ t.arbiter.current = some s.nextAccount ∧
          t.arbiter.pointer = s.nextAccount.pointerAfter ∧
          (let short := s.nextAccount.shortBowl .one || s.nextAccount.shortBowl .two
           ∀ p, { t.notices.get p with flags := (s.notices.get p).flags } = s.notices.get p ∧
            ∀ i, i < 15 → (t.notices.get p).flags.getLsbD i =
              ((short && decide (i = Cause.budgetShort.number)) || (s.notices.get p).flags.getLsbD i)) ∧
          (s.arbiter.current = none → t.arbiter.lastEnded = s.arbiter.lastEnded) ∧
          (∀ a, s.arbiter.current = some a → t.arbiter.lastEnded = some (a, .completed)) ∧
          (∀ b,
            let h := (s.bowl b).heat
            let g := (t.bowl b).heat
            let counting := (s.bowl b).cal.values.mode = .auto ∧ h.stepping = true ∧ h.settle = none
            let low := if h.rampComplete = true ∧ h.posted ≤ 4 then h.lowCount + 1 else 0
            let full := if h.posted = 20 then h.highCount + 1 else 0
            let kept (e : Element) : Prop := g.relay e = h.relay e
            let switches (e : Element) : Prop :=
              g.settle = some ⟨e, 60⟩ ∧ g.relay e = .settling ∧ g.lowCount = 0 ∧ g.highCount = 0
            g.grantStage = h.active ∧ g.shortLast = decide (g.grant < (s.nextAccount.heaters.get b).posted) ∧
              (counting → h.active = some .main → kept .main ∧
                if low < 10 then g.lowCount = low ∧ g.highCount = h.highCount ∧ g.settle = none ∧ kept .keep
                else switches .keep) ∧
              (counting → h.active = some .keep → kept .keep ∧
                if full < 5 then g.highCount = full ∧ g.lowCount = h.lowCount ∧ g.settle = none ∧ kept .main
                else switches .main) ∧
              (¬counting ∨ h.active = none →
                g.lowCount = h.lowCount ∧ g.highCount = h.highCount ∧ g.settle = h.settle ∧ kept .main ∧ kept .keep) ∧
              (∀ e, g.firing = some e ↔
                h.active = some e ∧ h.ordered = true ∧ h.latch = false ∧ h.relay e = .closed ∧ 0 < g.grant) ∧
              { g with
                grant := h.grant, grantStage := h.grantStage, shortLast := h.shortLast, lowCount := h.lowCount
                highCount := h.highCount, settle := h.settle, relayMain := h.relayMain, relayKeep := h.relayKeep
                firing := h.firing } = h) ∧
          ∀ b, (t.bowl b).heat.grant = (s.nextAccount.heaters.get b).grant ∧
            (t.bowl b).stir.ceiling = (s.nextAccount.motors.get b).ceiling ∧ (t.bowl b).stir.mainsHold = false ∧
            (let formed := (s.bowl b).stir.takeCeiling (s.nextAccount.motors.get b).ceiling
             let w := (s.bowl b).run.flags
             (t.bowl b).stir = formed.1 ∧
              (t.bowl b).run =
                { (s.bowl b).run with flags := { w with l := w.l || formed.2, b := w.b || s.nextAccount.shortBowl b } }) ∧
            (t.bowl b).weigh = (s.bowl b).weigh ∧ (t.bowl b).cal = (s.bowl b).cal) ∧
      ∀ (u : State) (p : Nat) (b : BowlId),
        let h := (u.bowl b).heat
        ∃ firing : Option Element,
          (∀ e, firing = some e ↔ h.active = some e ∧ h.ordered = true ∧ h.latch = false ∧ h.relay e = .closed ∧
            h.grantStage = some e ∧ p < h.grant) ∧
          (u.handPosition p).bowl b = { u.bowl b with heat := { h with firing := firing } }

/-- A zero-cross with the mains ABSENT counts toward restoration: on from a spacing of 7 to 12 ms, and 1 for any other; the
tenth makes the mains PRESENT and notices MAINS at both ports, with the bowls as they were (R125, R126). Each arrival restarts
the gap timer, and overtakes an expiry of it that waits (R124, assumption log entry 9). That the spacing is the
greater of the time the arrival carries and the time the model's clock has counted is the model's choice (assumption log
entry 8). -/
def Obligations.RestorationCount : Prop :=
  ∀ (since : Nat) (s : State), s.inReset = false → s.arbiter.present = false →
    let spacing := s.arbiter.spacing since
    let n := if 0 < s.arbiter.restoration ∧ 7000 ≤ spacing ∧ spacing ≤ 12000 then s.arbiter.restoration + 1 else 1
    let overtaken := s.arbiter.overtaken || decide (s.arbiter.gap = some 0)
    let x := { s.arbiter with gap := some 25, sinceCross := some 0, overtaken := overtaken }
    (n < 10 → exec (.zeroCrossArrival since) s = .next { s with arbiter := { x with restoration := n } }) ∧
      (10 ≤ n →
        ∃ t, exec (.zeroCrossArrival since) s = .next t ∧ t.arbiter = { x with present := true, restoration := 0 } ∧
          t.bowls = s.bowls ∧ t.store = s.store ∧ t.image = s.image ∧ t.ports = s.ports ∧
          ∀ p, (t.notices.get p).flags.getLsbD Cause.mains.number = true)

/-- The gap timer's expiry with the mains PRESENT is mains loss: no position or account in force, the window marked ABANDONED
with the half-cycles begun, motors in mains hold at setpoint 0, relays open, RUNNING and HOLDING bowls PAUSED with MAINS,
MAINS noticed. With the mains ABSENT it ends the restoration count (R50, R100, R118, R124, R125). An expiry that an arrival
overtook is dropped and nothing else changes; so an arrival taken while PRESENT before the expiry of a timer that has run out
restarts the timer, and the expiry taken after it makes no loss (R124; that the model marks the overtaken expiry, and takes any
other as the run-out of the timer, is assumption log entries 8 and 9). -/
def Obligations.GapExpiryIsMainsLoss : Prop :=
  ∀ s : State, s.inReset = false →
    (s.arbiter.overtaken = true →
      exec .gapTimerExpiry s = .next { s with arbiter := { s.arbiter with overtaken := false } }) ∧
      (s.arbiter.present = true → s.arbiter.gap = some 0 →
        ∀ since, ∃ t, exec (.zeroCrossArrival since) s = .next t ∧ t.arbiter.present = true ∧ t.arbiter.gap = some 25 ∧
          exec .gapTimerExpiry t = .next { t with arbiter := { t.arbiter with overtaken := false } }) ∧
      ∀ left, s.arbiter.gap = some left → s.arbiter.overtaken = false →
      (s.arbiter.present = false →
        exec .gapTimerExpiry s = .next { s with arbiter := { s.arbiter with gap := none, restoration := 0 } }) ∧
      (s.arbiter.present = true →
        ∃ t, exec .gapTimerExpiry s = .next t ∧ t.arbiter.present = false ∧ t.arbiter.restoration = 0 ∧
          t.arbiter.gap = none ∧ t.arbiter.position = none ∧ t.arbiter.current = none ∧
          (∀ a p, s.arbiter.current = some a → s.arbiter.position = some p →
            t.arbiter.lastEnded = some (a, .abandoned (p + 1))) ∧
          t.arbiter.cap = s.arbiter.cap ∧ t.arbiter.pendingCap = s.arbiter.pendingCap ∧ t.arbiter.mode = s.arbiter.mode ∧
          t.arbiter.pendingMode = s.arbiter.pendingMode ∧ t.arbiter.pointer = s.arbiter.pointer ∧
          (∀ b, (t.bowl b).stir.mainsHold = true ∧ (t.bowl b).stir.ceiling = none ∧ (t.bowl b).stir.setpoint = 0 ∧
            (t.bowl b).heat.grant = 0 ∧ (t.bowl b).heat.relayMain = .opened ∧ (t.bowl b).heat.relayKeep = .opened ∧
            ((s.bowl b).run.state = .running ∨ (s.bowl b).run.state = .holding → (t.bowl b).run.state = .paused) ∧
            ((s.bowl b).run.state = .running ∨ (s.bowl b).run.state = .holding ∨ (s.bowl b).run.state = .paused →
              (t.bowl b).run.pauses = { (s.bowl b).run.pauses with mains := true }) ∧
            ((s.bowl b).run.state = .idle ∨ (s.bowl b).run.state = .calibrating ∨ (s.bowl b).run.state = .fault →
              (t.bowl b).run.state = (s.bowl b).run.state ∧ (t.bowl b).run.pauses = (s.bowl b).run.pauses) ∧
            (t.bowl b).weigh = (s.bowl b).weigh ∧ (t.bowl b).cal = (s.bowl b).cal ∧
            (t.bowl b).run.record = (s.bowl b).run.record ∧ (t.bowl b).run.stepTimer = (s.bowl b).run.stepTimer) ∧
          t.store = s.store ∧ t.image = s.image ∧ t.ports = s.ports ∧
          ∀ p, (t.notices.get p).flags.getLsbD Cause.mains.number = true)

/-- SET_POWER_CAP clamps the cap to 50 to the circuit rating and makes it pending, answering with it; SET_ARBITRATION makes its
mode pending and is marked as set by request; neither changes anything else, and during autoload only the cap is refused
(R135, R145). -/
def Obligations.CapAndModeBecomePending : Prop :=
  ∀ (x : Xfer) (s : State), s.takes x.port → 50 ≤ s.arbiter.rating →
    (∀ c1 c0 : Byte,
      let cap := 256 * c1.toNat + c0.toNat
      let v := max 50 (min s.arbiter.rating cap)
      (s.image.autoload = .inFlight → exec (.setPowerCap x [c1, c0]) s = .next (s.answered x [c1, c0] .busy [])) ∧
        (s.image.autoload ≠ .inFlight →
          exec (.setPowerCap x [c1, c0]) s =
            .next (State.answered { s with arbiter := { s.arbiter with pendingCap := some v } } x [c1, c0]
              (if v = cap then .accepted else .clamped) [BitVec.ofNat 8 (v / 256), BitVec.ofNat 8 v]))) ∧
      exec (.setArbitration x [0]) s =
        .next (State.answered
          { s with arbiter := { s.arbiter with pendingMode := some .stay, modeByRequest := true } } x [0] .ok []) ∧
      exec (.setArbitration x [1]) s =
        .next (State.answered
          { s with arbiter := { s.arbiter with pendingMode := some .fit, modeByRequest := true } } x [1] .ok []) ∧
      ∀ pm : Byte, 2 ≤ pm.toNat → exec (.setArbitration x [pm]) s = .next (s.answered x [pm] .badParam [])

/-! ## Calibration and the stored image -/

/-- The three outcomes of autoload: ABSENT and BAD change nothing but the status; LOADED takes both blocks and the arbiter's
settings, the default cap clamped and the mode kept where a request set one, and reloads both channels (R65, R139, R144). -/
def Obligations.AutoloadOutcomes : Prop :=
  ∀ s : State, s.inReset = false → s.image.autoload = .inFlight →
    exec (.autoloadComplete .noAck) s = .next { s with image := { s.image with autoload := .absent } } ∧
      (∀ im, imageGood im = false →
        exec (.autoloadComplete (.image im)) s = .next { s with image := { s.image with autoload := .bad } }) ∧
      ∀ im, imageGood im = true →
        ∃ t, exec (.autoloadComplete (.image im)) s = .next t ∧ t.image = { s.image with autoload := .loaded } ∧
          (t.bowl .one).cal = { (s.bowl .one).cal with values := blockValues im 4 } ∧
          (t.bowl .two).cal = { (s.bowl .two).cal with values := blockValues im 18 } ∧
          (∀ b, (t.bowl b).weigh = { (s.bowl b).weigh with reloadPending := true, window := [], stable := false } ∧
            (t.bowl b).run = (s.bowl b).run ∧ (t.bowl b).heat = (s.bowl b).heat ∧ (t.bowl b).stir = (s.bowl b).stir) ∧
          t.arbiter.rating = imagePair im 32 ∧
          t.arbiter.pendingCap = some (max 50 (min (imagePair im 32) (imagePair im 34))) ∧
          (s.arbiter.modeByRequest = true → t.arbiter.pendingMode = s.arbiter.pendingMode) ∧
          (s.arbiter.modeByRequest = false → t.arbiter.pendingMode = arbModeOf (imageByte im 36)) ∧
          t.arbiter.cap = s.arbiter.cap ∧ t.arbiter.mode = s.arbiter.mode ∧ t.store = s.store ∧ t.notices = s.notices ∧
          t.ports = s.ports

/-- An image built from values inside their encodings is good and is read back to the values it was built from (R142, R143). The
image a save builds now holds for each bowl the values in force, with the saved trim, Z and G in place of those under
calibration, and the circuit rating, the cap in force as the default cap and the mode in force (R139, R153). -/
def Obligations.SavedImageReadsBack : Prop :=
  let fits (v : CalValues) : Prop :=
    v.trim < 256 ∧ -8388608 ≤ v.zero ∧ v.zero ≤ 8388607 ∧ v.gain < 16777216 ∧ 1 ≤ v.k ∧ v.k ≤ 256 ∧ 1 ≤ v.band ∧
      v.band ≤ 255 ∧ v.kp < 256 ∧ v.ki < 256 ∧ 10 ≤ v.mainRating ∧ v.mainRating ≤ 200 ∧ 10 ≤ v.keepRating ∧
      v.keepRating ≤ 200
  (∀ (one two : CalValues) (rating cap : Nat) (mode : ArbMode), fits one → fits two → 50 ≤ rating → rating ≤ 360 →
    cap < 65536 →
      let im := buildImage one two rating cap mode
      imageGood im = true ∧ blockValues im 4 = one ∧ blockValues im 18 = two ∧ imagePair im 32 = rating ∧
        imagePair im 34 = cap ∧ arbModeOf (imageByte im 36) = some mode) ∧
    ∀ s : State,
      let saved (b : BowlId) : CalValues :=
        match (s.bowl b).cal.context with
        | some k => { (s.bowl b).cal.values with trim := k.savedTrim, zero := k.savedZero, gain := k.savedGain }
        | none => (s.bowl b).cal.values
      fits (saved .one) → fits (saved .two) → 50 ≤ s.arbiter.rating → s.arbiter.rating ≤ 360 → s.arbiter.cap < 65536 →
        imageGood s.snapshot = true ∧ blockValues s.snapshot 4 = saved .one ∧ blockValues s.snapshot 18 = saved .two ∧
          imagePair s.snapshot 32 = s.arbiter.rating ∧ imagePair s.snapshot 34 = s.arbiter.cap ∧
          arbModeOf (imageByte s.snapshot 36) = some s.arbiter.mode

/-- CALIBRATE_ZERO and CALIBRATE_SPAN on an IDLE bowl with no settle running: CALIBRATING with no heat, speed 0, an empty window
and a context that saves trim, Z and G; the zero sweep starts at trim 0, the span capture at attempt 1 (R58, R146, R150). -/
def Obligations.CalibrationsBegin : Prop :=
  ∀ (x : Xfer) (pb r1 r0 : Byte) (b : BowlId) (s : State), s.takes x.port → bowlOf pb = some b →
    s.image.autoload ≠ .inFlight → (s.bowl b).run.state = .idle → (s.bowl b).heat.configSettle = none →
    let v := (s.bowl b).cal.values
    let begun (t : State) : Prop :=
      (t.bowl b).run.state = .calibrating ∧ (t.bowl b).heat.order = .noHeat ∧ (t.bowl b).stir.order = .speedZero ∧
        (t.bowl b).weigh = { (s.bowl b).weigh with window := [], stable := false } ∧
        { (t.bowl b).run with state := .idle, flags := (s.bowl b).run.flags } = (s.bowl b).run ∧
        t.bowl (otherBowl b) = s.bowl (otherBowl b) ∧ t.store = s.store ∧ t.notices = s.notices ∧ t.image = s.image ∧
        t.arbiter = s.arbiter
    (∃ t, exec (.calibrateZero x [pb]) s = .next t ∧ begun t ∧
      (t.bowl b).cal =
        { (s.bowl b).cal with
          values := { v with trim := 0 }
          context := some ⟨.zero, .sweep 0, 0, none, v.trim, v.zero, v.gain⟩ } ∧
      t.ports = (s.answered x [pb] .accepted []).ports) ∧
      (let reference := 256 * r1.toNat + r0.toNat
       100 ≤ reference → reference ≤ 50000 →
        ((s.bowl b).cal.zeroValid = false →
          exec (.calibrateSpan x [pb, r1, r0]) s = .next (s.answered x [pb, r1, r0] .uncalibrated [])) ∧
          ((s.bowl b).cal.zeroValid = true →
            ∃ t, exec (.calibrateSpan x [pb, r1, r0]) s = .next t ∧ begun t ∧
              (t.bowl b).cal =
                { (s.bowl b).cal with
                  context := some ⟨.span reference, .capture 1 0, 0, none, v.trim, v.zero, v.gain⟩ } ∧
              t.ports = (s.answered x [pb, r1, r0] .accepted []).ports))

/-- A conversion of a calibrating bowl at the third reading of a trim acts by the table of R147; the channel's mass, filter
and tare stay as they were (R80, R147, R151). The 32nd undisturbed sample of a capture ends the calibration: a zero
calibration makes the average Z and sets the zero-valid marker, a span calibration makes G round_conv(reference × 2^20 /
n_avg), or fails with SPAN_TOO_SMALL below 10,000 counts (R148 to R151). -/
def Obligations.SweepAndCaptureFollowTheirRules : Prop :=
  (∀ (b : BowlId) (sample : BitVec 24) (t : Nat) (x : CalContext) (s : State), s.inReset = false →
      (s.bowl b).run.state = .calibrating → (s.bowl b).cal.context = some x → x.phase = .sweep t → x.count = 2 → t ≤ 255 →
      let v := (s.bowl b).cal.values
      let r := sample.toInt
      ∃ u, exec (.loadCellConversion b sample) s = .next u ∧
        (u.bowl b).weigh.mass = (s.bowl b).weigh.mass ∧ (u.bowl b).weigh.filter = (s.bowl b).weigh.filter ∧
        (u.bowl b).weigh.tarePoint = (s.bowl b).weigh.tarePoint ∧
        (r < 0 → t < 255 → (u.bowl b).run.state = .calibrating ∧ (u.bowl b).cal.values = { v with trim := t + 1 } ∧
          (u.bowl b).cal.context = some { x with phase := .sweep (t + 1), count := 0 }) ∧
        (0 ≤ r → r < 8388607 → 1 ≤ t → (u.bowl b).run.state = .calibrating ∧
          (u.bowl b).cal.context = some { x with phase := .capture 1 0, count := 0, lockedTrim := some t }) ∧
        ((r < 0 ∧ t = 255) ∨ (0 ≤ r ∧ t = 0) ∨ r = 8388607 →
          (u.bowl b).run.state = .idle ∧ (u.bowl b).cal.context = none ∧ (u.bowl b).cal.lastOutcome = some .trimRange ∧
            (u.bowl b).cal.values = { v with trim := x.savedTrim, zero := x.savedZero, gain := x.savedGain } ∧
            ∀ p, (u.notices.get p).flags.getLsbD (Cause.ofBowl b .calDone).number = true)) ∧
    (∀ (c : BowlCal) (x : CalContext) (attempt : Nat) (sum r : Int), c.context = some x → x.phase = .capture attempt sum →
      x.count = 31 → isOverload r = false →
      let average := roundConv (sum + r) 32
      (x.kind = .zero →
        c.step r false = .finish { c with values := { c.values with zero := average }, zeroValid := true } .success) ∧
        ∀ reference, x.kind = .span reference →
          let n := average - c.values.zero
          (n < 10000 → c.step r false = .finish c .spanTooSmall) ∧
            (10000 ≤ n → reference ≤ 50000 → ∃ g : Nat,
              c.step r false = .finish { c with values := { c.values with gain := g } } .success ∧
                (g : Int) = roundConv ((reference : Int) * 2 ^ 20) n.toNat ∧ g ≤ 16777215))

/-- ABORT_CALIBRATION ends a calibration with outcome ABORTED: saved trim, Z and G return, the channel reloads, the bowl is
IDLE and CAL_DONE is noticed; for a bowl not CALIBRATING it is refused (R65, R151, R152). -/
def Obligations.AbortEndsCalibration : Prop :=
  ∀ (x : Xfer) (pb : Byte) (b : BowlId) (s : State), s.takes x.port → bowlOf pb = some b →
    ((s.bowl b).run.state ≠ .calibrating →
      exec (.abortCalibration x [pb]) s = .next (s.answered x [pb] .wrongState [])) ∧
      ∀ k, (s.bowl b).run.state = .calibrating → (s.bowl b).cal.context = some k →
        ∃ t, exec (.abortCalibration x [pb]) s = .next t ∧ (t.bowl b).run = { (s.bowl b).run with state := .idle } ∧
          (t.bowl b).heat = (s.bowl b).heat ∧ (t.bowl b).stir = (s.bowl b).stir ∧
          (t.bowl b).cal.context = none ∧ (t.bowl b).cal.lastOutcome = some .aborted ∧
          (t.bowl b).cal.values =
            { (s.bowl b).cal.values with trim := k.savedTrim, zero := k.savedZero, gain := k.savedGain } ∧
          (t.bowl b).cal.zeroValid = (s.bowl b).cal.zeroValid ∧
          (t.bowl b).weigh = { (s.bowl b).weigh with reloadPending := true, window := [], stable := false } ∧
          t.bowl (otherBowl b) = s.bowl (otherBowl b) ∧ t.ports = (s.answered x [pb] .ok []).ports ∧
          ∀ p, (t.notices.get p).flags.getLsbD (Cause.ofBowl b .calDone).number = true

/-- SAVE_CALIBRATION starts a save of the snapshot from its first page, or is refused with BUSY while autoload or a save is in
flight; a page acknowledged starts the next with a fresh 10 ms, the eighth ends the save OK, and a page without
acknowledgement or past its 10 ms ends it WRITE_FAILED, each end with STORE_DONE at both ports (R153, R154). -/
def Obligations.SaveWritesEightPages : Prop :=
  ∀ s : State, s.inReset = false →
    let ended (t : State) (o : SaveOutcome) : Prop :=
      t.image = { s.image with save := none, lastSave := some o } ∧ t.bowls = s.bowls ∧ t.arbiter = s.arbiter ∧
        t.store = s.store ∧ t.ports = s.ports ∧ ∀ p, (t.notices.get p).flags.getLsbD Cause.storeDone.number = true
    (∀ x : Xfer, s.takes x.port →
      ((s.image.autoload = .inFlight ∨ s.image.save.isSome) →
        exec (.saveCalibration x []) s = .next (s.answered x [] .busy [])) ∧
        (s.image.autoload ≠ .inFlight → s.image.save = none →
          exec (.saveCalibration x []) s =
            .next (State.answered { s with image := { s.image with save := some ⟨s.snapshot, 0, 10⟩ } } x [] .accepted
              []))) ∧
      ∀ j, s.image.save = some j →
        (j.page < 7 →
          exec (.eepromPageWriteDone true) s =
            .next { s with image := { s.image with save := some { j with page := j.page + 1, left := 10 } } }) ∧
          (j.page = 7 → ∃ t, exec (.eepromPageWriteDone true) s = .next t ∧ ended t .ok) ∧
          (∃ t, exec (.eepromPageWriteDone false) s = .next t ∧ ended t .writeFailed) ∧
          ∃ t, exec .eepromPageTimeout s = .next t ∧ ended t .writeFailed

/-! ## Notices -/

/-- ACK_NOTICE clears the named causes of the requesting port, SET_NOTICE sets one cause's enable and priority there, and
SET_THRESHOLD its threshold; values outside their codings are refused, and nothing of the other port or of any other block
changes (R173, R176, R177). A raising joins both ports' flag sets and nothing leaves them; a port's attention line is
asserted exactly while some cause is set, enabled and of a priority above the threshold (R173, R174). -/
def Obligations.NoticesByPort : Prop :=
  (∀ (x : Xfer) (s : State), s.takes x.port →
      let n := s.notices.get x.port
      (∀ c1 c0 : Byte,
        (128 ≤ c1.toNat → exec (.ackNotice x [c1, c0]) s = .next (s.answered x [c1, c0] .badParam [])) ∧
          (c1.toNat < 128 →
            exec (.ackNotice x [c1, c0]) s =
              .next (State.answered
                (s.setNotice x.port
                  { n with flags := n.flags &&& ~~~(BitVec.ofNat 15 (256 * c1.toNat + c0.toNat)) }) x [c1, c0] .ok []))) ∧
        (∀ pc pe pp : Byte,
          (14 < pc.toNat ∨ 1 < pe.toNat ∨ 3 < pp.toNat →
            exec (.setNotice x [pc, pe, pp]) s = .next (s.answered x [pc, pe, pp] .badParam [])) ∧
            (pc.toNat ≤ 14 → pe.toNat ≤ 1 → pp.toNat ≤ 3 →
              ∃ n' : NoticePort, exec (.setNotice x [pc, pe, pp]) s =
                  .next (State.answered (s.setNotice x.port n') x [pc, pe, pp] .ok []) ∧
                n'.flags = n.flags ∧ n'.threshold = n.threshold ∧
                ∀ c : Fin 15,
                  n'.enables.getLsbD c.val = (if c.val = pc.toNat then decide (pe.toNat = 1) else n.enables.getLsbD c.val) ∧
                    n'.priority[c] = if c.val = pc.toNat then Fin.ofNat 4 pp.toNat else n.priority[c])) ∧
        ∀ pl : Byte,
          (3 < pl.toNat → exec (.setThreshold x [pl]) s = .next (s.answered x [pl] .badParam [])) ∧
            (pl.toNat ≤ 3 →
              exec (.setThreshold x [pl]) s =
                .next (State.answered (s.setNotice x.port { n with threshold := Fin.ofNat 4 pl.toNat }) x [pl] .ok []))) ∧
    ((∀ (s : State) (c : Cause) (p : PortId) (i : Nat), i < 15 →
      ((s.raise c).notices.get p).flags.getLsbD i = (decide (i = c.number) || (s.notices.get p).flags.getLsbD i)) ∧
      ∀ n : NoticePort, n.attention = true ↔
        ∃ c : Fin 15, n.flags.getLsbD c.val = true ∧ n.enables.getLsbD c.val = true ∧ n.threshold < n.priority[c])

/-! ## Arithmetic -/

/-- round_conv (R1): the nearest integer, and of two that are equally near the even one, as its examples show; a division that
floors rounds toward minus infinity. -/
def Obligations.ConvergentRounding : Prop :=
  (∀ (a : Int) (b : Nat), 0 < b →
    2 * (roundConv a b * b - a) ≤ b ∧ -(b : Int) ≤ 2 * (roundConv a b * b - a) ∧
      ((2 * (roundConv a b * b - a) = b ∨ 2 * (roundConv a b * b - a) = -(b : Int)) → roundConv a b % 2 = 0)) ∧
    roundConv 1 2 = 0 ∧ roundConv 3 2 = 2 ∧ roundConv 5 2 = 2 ∧ roundConv (-1) 2 = 0 ∧
    ∀ (a : Int) (b : Nat), 0 < b → (a / (b : Int)) * b ≤ a ∧ a < (a / (b : Int) + 1) * b

/-! ## Invariants -/

/-- The reset state meets every invariant below. -/
def Obligations.InvariantsHoldAtReset : Prop :=
  State.reset.MotorsSafe ∧ State.reset.LatchesHeld ∧ State.reset.store.Sound ∧ State.reset.UsersMatch

/-- A bowl's motor setpoint is above 0 only while its lid is closed, and above 1,200 rpm only while its lock is confirmed
(R111): every step keeps it, together with the same limits on the target. -/
def Obligations.EveryStepKeepsMotorsSafe : Prop :=
  ∀ s t : State, s.MotorsSafe → step s = .next t → t.MotorsSafe

/-- While a bowl's over-temperature latch is set, the bowl is in FAULT and both of its relays are open (R85): every step keeps
it. -/
def Obligations.EveryStepKeepsLatchesHeld : Prop :=
  ∀ s t : State, s.LatchesHeld → step s = .next t → t.LatchesHeld

/-- The extents of the LOADING and READY recipes and the free extents together cover the 256 step slots exactly once each, the
free-extent list is in ascending order with no two entries overlapping or adjacent and none empty (R8, R10), every recipe has at
least one step (R11), and step memory keeps its canonical form: every step keeps all of it. -/
def Obligations.EveryStepKeepsStoreSound : Prop :=
  ∀ s t : State, s.store.Sound → step s = .next t → t.store.Sound

/-- A slot's user set contains exactly the bowls whose run context references that slot (R42): every step keeps it. -/
def Obligations.EveryStepKeepsUsersMatch : Prop :=
  ∀ s t : State, s.UsersMatch → step s = .next t → t.UsersMatch
end

