-- ==== Sys2Proof/Laws/State.lean ====
section
/-! SUPPORT. What each update of the state changes and leaves alone: one lemma per field and update. -/

namespace Sys2Proof.Machine

open Sys2Proof

/-! ## Values by bowl and by port -/

@[simp] theorem PerBowl.get_set_same {α : Type} (p : PerBowl α) (b : BowlId) (v : α) : (p.set b v).get b = v := by
  cases b <;> rfl

@[simp] theorem PerBowl.get_set_other {α : Type} (p : PerBowl α) (b : BowlId) (v : α) :
    (p.set b v).get (otherBowl b) = p.get (otherBowl b) := by
  cases b <;> rfl

theorem PerBowl.get_set {α : Type} (p : PerBowl α) (b c : BowlId) (v : α) :
    (p.set b v).get c = if c = b then v else p.get c := by
  cases b <;> cases c <;> rfl

@[simp] theorem PerPort.get_set_same {α : Type} (p : PerPort α) (q : PortId) (v : α) : (p.set q v).get q = v := by
  cases q <;> rfl

theorem PerPort.get_set {α : Type} (p : PerPort α) (q r : PortId) (v : α) :
    (p.set q v).get r = if r = q then v else p.get r := by
  cases q <;> cases r <;> rfl

@[simp] theorem otherBowl_ne (b : BowlId) : otherBowl b ≠ b := by cases b <;> decide

@[simp] theorem ne_otherBowl (b : BowlId) : b ≠ otherBowl b := by cases b <;> decide

/-- A bowl is the one of an update or the other. -/
theorem eq_or_otherBowl (b c : BowlId) : c = b ∨ c = otherBowl b := by cases b <;> cases c <;> decide

/-! ## The bowl an update acts on, and the other one -/

@[simp] theorem State.bowl_setBowl (s : State) (b : BowlId) (x : Bowl) : (s.setBowl b x).bowl b = x := by
  cases b <;> rfl

@[simp] theorem State.other_setBowl (s : State) (b : BowlId) (x : Bowl) :
    (s.setBowl b x).bowl (otherBowl b) = s.bowl (otherBowl b) := by
  cases b <;> rfl

@[simp] theorem State.setBowl_setBowl (s : State) (b : BowlId) (x y : Bowl) :
    (s.setBowl b x).setBowl b y = s.setBowl b y := by
  cases b <;> rfl

@[simp] theorem State.setBowl_self (s : State) (b : BowlId) : s.setBowl b (s.bowl b) = s := by
  cases b <;> rfl

@[simp] theorem State.bowl_setRun (s : State) (b : BowlId) (r : RunContext) :
    (s.setRun b r).bowl b = { s.bowl b with run := r } := by
  cases b <;> rfl

@[simp] theorem State.other_setRun (s : State) (b : BowlId) (r : RunContext) :
    (s.setRun b r).bowl (otherBowl b) = s.bowl (otherBowl b) := by
  cases b <;> rfl

@[simp] theorem State.setRun_setRun (s : State) (b : BowlId) (r r' : RunContext) :
    (s.setRun b r).setRun b r' = s.setRun b r' := by
  cases b <;> rfl

@[simp] theorem State.bowl_setWeigh (s : State) (b : BowlId) (c : Channel) :
    (s.setWeigh b c).bowl b = { s.bowl b with weigh := c } := by
  cases b <;> rfl

@[simp] theorem State.other_setWeigh (s : State) (b : BowlId) (c : Channel) :
    (s.setWeigh b c).bowl (otherBowl b) = s.bowl (otherBowl b) := by
  cases b <;> rfl

@[simp] theorem State.setWeigh_setWeigh (s : State) (b : BowlId) (c c' : Channel) :
    (s.setWeigh b c).setWeigh b c' = s.setWeigh b c' := by
  cases b <;> rfl

@[simp] theorem State.bowl_setHeat (s : State) (b : BowlId) (h : HeatUnit) :
    (s.setHeat b h).bowl b = { s.bowl b with heat := h } := by
  cases b <;> rfl

@[simp] theorem State.other_setHeat (s : State) (b : BowlId) (h : HeatUnit) :
    (s.setHeat b h).bowl (otherBowl b) = s.bowl (otherBowl b) := by
  cases b <;> rfl

@[simp] theorem State.setHeat_setHeat (s : State) (b : BowlId) (h h' : HeatUnit) :
    (s.setHeat b h).setHeat b h' = s.setHeat b h' := by
  cases b <;> rfl

@[simp] theorem State.bowl_setStir (s : State) (b : BowlId) (u : StirUnit) :
    (s.setStir b u).bowl b = { s.bowl b with stir := u } := by
  cases b <;> rfl

@[simp] theorem State.other_setStir (s : State) (b : BowlId) (u : StirUnit) :
    (s.setStir b u).bowl (otherBowl b) = s.bowl (otherBowl b) := by
  cases b <;> rfl

@[simp] theorem State.setStir_setStir (s : State) (b : BowlId) (u u' : StirUnit) :
    (s.setStir b u).setStir b u' = s.setStir b u' := by
  cases b <;> rfl

@[simp] theorem State.bowl_setCal (s : State) (b : BowlId) (c : BowlCal) :
    (s.setCal b c).bowl b = { s.bowl b with cal := c } := by
  cases b <;> rfl

@[simp] theorem State.other_setCal (s : State) (b : BowlId) (c : BowlCal) :
    (s.setCal b c).bowl (otherBowl b) = s.bowl (otherBowl b) := by
  cases b <;> rfl

@[simp] theorem State.setCal_setCal (s : State) (b : BowlId) (c c' : BowlCal) :
    (s.setCal b c).setCal b c' = s.setCal b c' := by
  cases b <;> rfl

/-- A clamp noted in a bowl joins its L flag and changes nothing else of the bowl (R35). -/
@[simp] theorem State.bowl_noteClamp (s : State) (b : BowlId) (c : Bool) :
    (s.noteClamp b c).bowl b =
      { s.bowl b with run := { (s.bowl b).run with flags := { (s.bowl b).run.flags with l := (s.bowl b).run.flags.l || c } } } := by
  cases c <;> simp [State.noteClamp, State.setFlags]

@[simp] theorem State.other_noteClamp (s : State) (b : BowlId) (c : Bool) :
    (s.noteClamp b c).bowl (otherBowl b) = s.bowl (otherBowl b) := by
  cases c <;> simp [State.noteClamp, State.setFlags]

/-- A budget-short event joins a bowl's B flag and changes nothing else of the bowl (R136). -/
@[simp] theorem State.bowl_noteShort (s : State) (b : BowlId) (c : Bool) :
    (s.noteShort b c).bowl b =
      { s.bowl b with run := { (s.bowl b).run with flags := { (s.bowl b).run.flags with b := (s.bowl b).run.flags.b || c } } } := by
  cases c <;> simp [State.noteShort, State.setFlags]

@[simp] theorem State.other_noteShort (s : State) (b : BowlId) (c : Bool) :
    (s.noteShort b c).bowl (otherBowl b) = s.bowl (otherBowl b) := by
  cases c <;> simp [State.noteShort, State.setFlags]

@[simp] theorem State.bowl_setFlags (s : State) (b : BowlId) (w : FlagWord) :
    (s.setFlags b w).bowl b = { s.bowl b with run := { (s.bowl b).run with flags := w } } := by
  simp [State.setFlags]

@[simp] theorem State.other_setFlags (s : State) (b : BowlId) (w : FlagWord) :
    (s.setFlags b w).bowl (otherBowl b) = s.bowl (otherBowl b) := by
  simp [State.setFlags]

@[simp] theorem State.bowl_raise (s : State) (c : Cause) (b : BowlId) : (s.raise c).bowl b = s.bowl b := rfl

@[simp] theorem State.bowls_raise (s : State) (c : Cause) : (s.raise c).bowls = s.bowls := rfl

@[simp] theorem State.bowl_setStore (s : State) (st : Store) (b : BowlId) : (s.setStore st).bowl b = s.bowl b := rfl

@[simp] theorem State.bowl_setPort (s : State) (p : PortId) (q : Port) (b : BowlId) : (s.setPort p q).bowl b = s.bowl b := rfl

@[simp] theorem State.bowl_setNotice (s : State) (p : PortId) (n : NoticePort) (b : BowlId) :
    (s.setNotice p n).bowl b = s.bowl b := rfl

@[simp] theorem State.port_setPort (s : State) (p : PortId) (q : Port) : (s.setPort p q).ports.get p = q := by
  cases p <;> rfl

/-! ## Unit orders taken into a bowl -/

@[simp] theorem State.bowl_putStir (s : State) (b : BowlId) (r : StirUnit × Bool) :
    (s.putStir b r).bowl b =
      { s.bowl b with
        stir := r.1
        run := { (s.bowl b).run with flags := { (s.bowl b).run.flags with l := (s.bowl b).run.flags.l || r.2 } } } := by
  simp [State.putStir]

@[simp] theorem State.other_putStir (s : State) (b : BowlId) (r : StirUnit × Bool) :
    (s.putStir b r).bowl (otherBowl b) = s.bowl (otherBowl b) := by
  simp [State.putStir]

@[simp] theorem State.bowl_putHeat (s : State) (b : BowlId) (r : HeatUnit × Bool) :
    (s.putHeat b r).bowl b =
      { s.bowl b with
        heat := r.1
        run := { (s.bowl b).run with flags := { (s.bowl b).run.flags with l := (s.bowl b).run.flags.l || r.2 } } } := by
  simp [State.putHeat]

@[simp] theorem State.other_putHeat (s : State) (b : BowlId) (r : HeatUnit × Bool) :
    (s.putHeat b r).bowl (otherBowl b) = s.bowl (otherBowl b) := by
  simp [State.putHeat]

/-! ## The shared blocks -/

@[simp] theorem State.setBowl_store (s : State) (b : BowlId) (x : Bowl) : (s.setBowl b x).store = s.store := rfl

@[simp] theorem State.setBowl_image (s : State) (b : BowlId) (x : Bowl) : (s.setBowl b x).image = s.image := rfl

@[simp] theorem State.setBowl_arbiter (s : State) (b : BowlId) (x : Bowl) : (s.setBowl b x).arbiter = s.arbiter := rfl

@[simp] theorem State.setBowl_ports (s : State) (b : BowlId) (x : Bowl) : (s.setBowl b x).ports = s.ports := rfl

@[simp] theorem State.setBowl_notices (s : State) (b : BowlId) (x : Bowl) : (s.setBowl b x).notices = s.notices := rfl

@[simp] theorem State.setBowl_inReset (s : State) (b : BowlId) (x : Bowl) : (s.setBowl b x).inReset = s.inReset := rfl

@[simp] theorem State.setBowl_resets (s : State) (b : BowlId) (x : Bowl) : (s.setBowl b x).resets = s.resets := rfl

@[simp] theorem State.setBowl_draws (s : State) (b : BowlId) (x : Bowl) : (s.setBowl b x).draws = s.draws := rfl

@[simp] theorem State.setBowl_pending (s : State) (b : BowlId) (x : Bowl) : (s.setBowl b x).pending = s.pending := rfl

@[simp] theorem State.setRun_store (s : State) (b : BowlId) (x : RunContext) : (s.setRun b x).store = s.store := rfl

@[simp] theorem State.setRun_image (s : State) (b : BowlId) (x : RunContext) : (s.setRun b x).image = s.image := rfl

@[simp] theorem State.setRun_arbiter (s : State) (b : BowlId) (x : RunContext) : (s.setRun b x).arbiter = s.arbiter := rfl

@[simp] theorem State.setRun_ports (s : State) (b : BowlId) (x : RunContext) : (s.setRun b x).ports = s.ports := rfl

@[simp] theorem State.setRun_notices (s : State) (b : BowlId) (x : RunContext) : (s.setRun b x).notices = s.notices := rfl

@[simp] theorem State.setRun_inReset (s : State) (b : BowlId) (x : RunContext) : (s.setRun b x).inReset = s.inReset := rfl

@[simp] theorem State.setRun_resets (s : State) (b : BowlId) (x : RunContext) : (s.setRun b x).resets = s.resets := rfl

@[simp] theorem State.setRun_draws (s : State) (b : BowlId) (x : RunContext) : (s.setRun b x).draws = s.draws := rfl

@[simp] theorem State.setRun_pending (s : State) (b : BowlId) (x : RunContext) : (s.setRun b x).pending = s.pending := rfl

@[simp] theorem State.setWeigh_store (s : State) (b : BowlId) (x : Channel) : (s.setWeigh b x).store = s.store := rfl

@[simp] theorem State.setWeigh_image (s : State) (b : BowlId) (x : Channel) : (s.setWeigh b x).image = s.image := rfl

@[simp] theorem State.setWeigh_arbiter (s : State) (b : BowlId) (x : Channel) : (s.setWeigh b x).arbiter = s.arbiter := rfl

@[simp] theorem State.setWeigh_ports (s : State) (b : BowlId) (x : Channel) : (s.setWeigh b x).ports = s.ports := rfl

@[simp] theorem State.setWeigh_notices (s : State) (b : BowlId) (x : Channel) : (s.setWeigh b x).notices = s.notices := rfl

@[simp] theorem State.setWeigh_inReset (s : State) (b : BowlId) (x : Channel) : (s.setWeigh b x).inReset = s.inReset := rfl

@[simp] theorem State.setWeigh_resets (s : State) (b : BowlId) (x : Channel) : (s.setWeigh b x).resets = s.resets := rfl

@[simp] theorem State.setWeigh_draws (s : State) (b : BowlId) (x : Channel) : (s.setWeigh b x).draws = s.draws := rfl

@[simp] theorem State.setWeigh_pending (s : State) (b : BowlId) (x : Channel) : (s.setWeigh b x).pending = s.pending := rfl

@[simp] theorem State.setHeat_store (s : State) (b : BowlId) (x : HeatUnit) : (s.setHeat b x).store = s.store := rfl

@[simp] theorem State.setHeat_image (s : State) (b : BowlId) (x : HeatUnit) : (s.setHeat b x).image = s.image := rfl

@[simp] theorem State.setHeat_arbiter (s : State) (b : BowlId) (x : HeatUnit) : (s.setHeat b x).arbiter = s.arbiter := rfl

@[simp] theorem State.setHeat_ports (s : State) (b : BowlId) (x : HeatUnit) : (s.setHeat b x).ports = s.ports := rfl

@[simp] theorem State.setHeat_notices (s : State) (b : BowlId) (x : HeatUnit) : (s.setHeat b x).notices = s.notices := rfl

@[simp] theorem State.setHeat_inReset (s : State) (b : BowlId) (x : HeatUnit) : (s.setHeat b x).inReset = s.inReset := rfl

@[simp] theorem State.setHeat_resets (s : State) (b : BowlId) (x : HeatUnit) : (s.setHeat b x).resets = s.resets := rfl

@[simp] theorem State.setHeat_draws (s : State) (b : BowlId) (x : HeatUnit) : (s.setHeat b x).draws = s.draws := rfl

@[simp] theorem State.setHeat_pending (s : State) (b : BowlId) (x : HeatUnit) : (s.setHeat b x).pending = s.pending := rfl

@[simp] theorem State.setStir_store (s : State) (b : BowlId) (x : StirUnit) : (s.setStir b x).store = s.store := rfl

@[simp] theorem State.setStir_image (s : State) (b : BowlId) (x : StirUnit) : (s.setStir b x).image = s.image := rfl

@[simp] theorem State.setStir_arbiter (s : State) (b : BowlId) (x : StirUnit) : (s.setStir b x).arbiter = s.arbiter := rfl

@[simp] theorem State.setStir_ports (s : State) (b : BowlId) (x : StirUnit) : (s.setStir b x).ports = s.ports := rfl

@[simp] theorem State.setStir_notices (s : State) (b : BowlId) (x : StirUnit) : (s.setStir b x).notices = s.notices := rfl

@[simp] theorem State.setStir_inReset (s : State) (b : BowlId) (x : StirUnit) : (s.setStir b x).inReset = s.inReset := rfl

@[simp] theorem State.setStir_resets (s : State) (b : BowlId) (x : StirUnit) : (s.setStir b x).resets = s.resets := rfl

@[simp] theorem State.setStir_draws (s : State) (b : BowlId) (x : StirUnit) : (s.setStir b x).draws = s.draws := rfl

@[simp] theorem State.setStir_pending (s : State) (b : BowlId) (x : StirUnit) : (s.setStir b x).pending = s.pending := rfl

@[simp] theorem State.setCal_store (s : State) (b : BowlId) (x : BowlCal) : (s.setCal b x).store = s.store := rfl

@[simp] theorem State.setCal_image (s : State) (b : BowlId) (x : BowlCal) : (s.setCal b x).image = s.image := rfl

@[simp] theorem State.setCal_arbiter (s : State) (b : BowlId) (x : BowlCal) : (s.setCal b x).arbiter = s.arbiter := rfl

@[simp] theorem State.setCal_ports (s : State) (b : BowlId) (x : BowlCal) : (s.setCal b x).ports = s.ports := rfl

@[simp] theorem State.setCal_notices (s : State) (b : BowlId) (x : BowlCal) : (s.setCal b x).notices = s.notices := rfl

@[simp] theorem State.setCal_inReset (s : State) (b : BowlId) (x : BowlCal) : (s.setCal b x).inReset = s.inReset := rfl

@[simp] theorem State.setCal_resets (s : State) (b : BowlId) (x : BowlCal) : (s.setCal b x).resets = s.resets := rfl

@[simp] theorem State.setCal_draws (s : State) (b : BowlId) (x : BowlCal) : (s.setCal b x).draws = s.draws := rfl

@[simp] theorem State.setCal_pending (s : State) (b : BowlId) (x : BowlCal) : (s.setCal b x).pending = s.pending := rfl

@[simp] theorem State.setFlags_store (s : State) (b : BowlId) (x : FlagWord) : (s.setFlags b x).store = s.store := rfl

@[simp] theorem State.setFlags_image (s : State) (b : BowlId) (x : FlagWord) : (s.setFlags b x).image = s.image := rfl

@[simp] theorem State.setFlags_arbiter (s : State) (b : BowlId) (x : FlagWord) : (s.setFlags b x).arbiter = s.arbiter := rfl

@[simp] theorem State.setFlags_ports (s : State) (b : BowlId) (x : FlagWord) : (s.setFlags b x).ports = s.ports := rfl

@[simp] theorem State.setFlags_notices (s : State) (b : BowlId) (x : FlagWord) : (s.setFlags b x).notices = s.notices := rfl

@[simp] theorem State.setFlags_inReset (s : State) (b : BowlId) (x : FlagWord) : (s.setFlags b x).inReset = s.inReset := rfl

@[simp] theorem State.setFlags_resets (s : State) (b : BowlId) (x : FlagWord) : (s.setFlags b x).resets = s.resets := rfl

@[simp] theorem State.setFlags_draws (s : State) (b : BowlId) (x : FlagWord) : (s.setFlags b x).draws = s.draws := rfl

@[simp] theorem State.setFlags_pending (s : State) (b : BowlId) (x : FlagWord) : (s.setFlags b x).pending = s.pending := rfl

@[simp] theorem State.noteClamp_store (s : State) (b : BowlId) (x : Bool) : (s.noteClamp b x).store = s.store := by cases x <;> rfl

@[simp] theorem State.noteClamp_image (s : State) (b : BowlId) (x : Bool) : (s.noteClamp b x).image = s.image := by cases x <;> rfl

@[simp] theorem State.noteClamp_arbiter (s : State) (b : BowlId) (x : Bool) : (s.noteClamp b x).arbiter = s.arbiter := by cases x <;> rfl

@[simp] theorem State.noteClamp_ports (s : State) (b : BowlId) (x : Bool) : (s.noteClamp b x).ports = s.ports := by cases x <;> rfl

@[simp] theorem State.noteClamp_notices (s : State) (b : BowlId) (x : Bool) : (s.noteClamp b x).notices = s.notices := by cases x <;> rfl

@[simp] theorem State.noteClamp_inReset (s : State) (b : BowlId) (x : Bool) : (s.noteClamp b x).inReset = s.inReset := by cases x <;> rfl

@[simp] theorem State.noteClamp_resets (s : State) (b : BowlId) (x : Bool) : (s.noteClamp b x).resets = s.resets := by cases x <;> rfl

@[simp] theorem State.noteClamp_draws (s : State) (b : BowlId) (x : Bool) : (s.noteClamp b x).draws = s.draws := by cases x <;> rfl

@[simp] theorem State.noteClamp_pending (s : State) (b : BowlId) (x : Bool) : (s.noteClamp b x).pending = s.pending := by cases x <;> rfl

@[simp] theorem State.noteShort_store (s : State) (b : BowlId) (x : Bool) : (s.noteShort b x).store = s.store := by cases x <;> rfl

@[simp] theorem State.noteShort_image (s : State) (b : BowlId) (x : Bool) : (s.noteShort b x).image = s.image := by cases x <;> rfl

@[simp] theorem State.noteShort_arbiter (s : State) (b : BowlId) (x : Bool) : (s.noteShort b x).arbiter = s.arbiter := by cases x <;> rfl

@[simp] theorem State.noteShort_ports (s : State) (b : BowlId) (x : Bool) : (s.noteShort b x).ports = s.ports := by cases x <;> rfl

@[simp] theorem State.noteShort_notices (s : State) (b : BowlId) (x : Bool) : (s.noteShort b x).notices = s.notices := by cases x <;> rfl

@[simp] theorem State.noteShort_inReset (s : State) (b : BowlId) (x : Bool) : (s.noteShort b x).inReset = s.inReset := by cases x <;> rfl

@[simp] theorem State.noteShort_resets (s : State) (b : BowlId) (x : Bool) : (s.noteShort b x).resets = s.resets := by cases x <;> rfl

@[simp] theorem State.noteShort_draws (s : State) (b : BowlId) (x : Bool) : (s.noteShort b x).draws = s.draws := by cases x <;> rfl

@[simp] theorem State.noteShort_pending (s : State) (b : BowlId) (x : Bool) : (s.noteShort b x).pending = s.pending := by cases x <;> rfl

@[simp] theorem State.reportStable_store (s : State) (b : BowlId) (x : Bool) : (s.reportStable b x).store = s.store := rfl

@[simp] theorem State.reportStable_image (s : State) (b : BowlId) (x : Bool) : (s.reportStable b x).image = s.image := rfl

@[simp] theorem State.reportStable_arbiter (s : State) (b : BowlId) (x : Bool) : (s.reportStable b x).arbiter = s.arbiter := rfl

@[simp] theorem State.reportStable_ports (s : State) (b : BowlId) (x : Bool) : (s.reportStable b x).ports = s.ports := rfl

@[simp] theorem State.reportStable_notices (s : State) (b : BowlId) (x : Bool) : (s.reportStable b x).notices = s.notices := rfl

@[simp] theorem State.reportStable_inReset (s : State) (b : BowlId) (x : Bool) : (s.reportStable b x).inReset = s.inReset := rfl

@[simp] theorem State.reportStable_resets (s : State) (b : BowlId) (x : Bool) : (s.reportStable b x).resets = s.resets := rfl

@[simp] theorem State.reportStable_draws (s : State) (b : BowlId) (x : Bool) : (s.reportStable b x).draws = s.draws := rfl

@[simp] theorem State.reportStable_pending (s : State) (b : BowlId) (x : Bool) : (s.reportStable b x).pending = s.pending := rfl

@[simp] theorem State.putStir_store (s : State) (b : BowlId) (x : StirUnit × Bool) : (s.putStir b x).store = s.store := by simp [State.putStir]

@[simp] theorem State.putStir_image (s : State) (b : BowlId) (x : StirUnit × Bool) : (s.putStir b x).image = s.image := by simp [State.putStir]

@[simp] theorem State.putStir_arbiter (s : State) (b : BowlId) (x : StirUnit × Bool) : (s.putStir b x).arbiter = s.arbiter := by simp [State.putStir]

@[simp] theorem State.putStir_ports (s : State) (b : BowlId) (x : StirUnit × Bool) : (s.putStir b x).ports = s.ports := by simp [State.putStir]

@[simp] theorem State.putStir_notices (s : State) (b : BowlId) (x : StirUnit × Bool) : (s.putStir b x).notices = s.notices := by simp [State.putStir]

@[simp] theorem State.putStir_inReset (s : State) (b : BowlId) (x : StirUnit × Bool) : (s.putStir b x).inReset = s.inReset := by simp [State.putStir]

@[simp] theorem State.putStir_resets (s : State) (b : BowlId) (x : StirUnit × Bool) : (s.putStir b x).resets = s.resets := by simp [State.putStir]

@[simp] theorem State.putStir_draws (s : State) (b : BowlId) (x : StirUnit × Bool) : (s.putStir b x).draws = s.draws := by simp [State.putStir]

@[simp] theorem State.putStir_pending (s : State) (b : BowlId) (x : StirUnit × Bool) : (s.putStir b x).pending = s.pending := by simp [State.putStir]

@[simp] theorem State.putHeat_store (s : State) (b : BowlId) (x : HeatUnit × Bool) : (s.putHeat b x).store = s.store := by simp [State.putHeat]

@[simp] theorem State.putHeat_image (s : State) (b : BowlId) (x : HeatUnit × Bool) : (s.putHeat b x).image = s.image := by simp [State.putHeat]

@[simp] theorem State.putHeat_arbiter (s : State) (b : BowlId) (x : HeatUnit × Bool) : (s.putHeat b x).arbiter = s.arbiter := by simp [State.putHeat]

@[simp] theorem State.putHeat_ports (s : State) (b : BowlId) (x : HeatUnit × Bool) : (s.putHeat b x).ports = s.ports := by simp [State.putHeat]

@[simp] theorem State.putHeat_notices (s : State) (b : BowlId) (x : HeatUnit × Bool) : (s.putHeat b x).notices = s.notices := by simp [State.putHeat]

@[simp] theorem State.putHeat_inReset (s : State) (b : BowlId) (x : HeatUnit × Bool) : (s.putHeat b x).inReset = s.inReset := by simp [State.putHeat]

@[simp] theorem State.putHeat_resets (s : State) (b : BowlId) (x : HeatUnit × Bool) : (s.putHeat b x).resets = s.resets := by simp [State.putHeat]

@[simp] theorem State.putHeat_draws (s : State) (b : BowlId) (x : HeatUnit × Bool) : (s.putHeat b x).draws = s.draws := by simp [State.putHeat]

@[simp] theorem State.putHeat_pending (s : State) (b : BowlId) (x : HeatUnit × Bool) : (s.putHeat b x).pending = s.pending := by simp [State.putHeat]

@[simp] theorem State.raise_store (s : State) (c : Cause) : (s.raise c).store = s.store := rfl

@[simp] theorem State.raise_image (s : State) (c : Cause) : (s.raise c).image = s.image := rfl

@[simp] theorem State.raise_arbiter (s : State) (c : Cause) : (s.raise c).arbiter = s.arbiter := rfl

@[simp] theorem State.raise_ports (s : State) (c : Cause) : (s.raise c).ports = s.ports := rfl

@[simp] theorem State.raise_inReset (s : State) (c : Cause) : (s.raise c).inReset = s.inReset := rfl

@[simp] theorem State.raise_resets (s : State) (c : Cause) : (s.raise c).resets = s.resets := rfl

@[simp] theorem State.raise_draws (s : State) (c : Cause) : (s.raise c).draws = s.draws := rfl

@[simp] theorem State.raise_pending (s : State) (c : Cause) : (s.raise c).pending = s.pending := rfl

@[simp] theorem State.setStore_image (s : State) (x : Store) : (s.setStore x).image = s.image := rfl

@[simp] theorem State.setStore_arbiter (s : State) (x : Store) : (s.setStore x).arbiter = s.arbiter := rfl

@[simp] theorem State.setStore_ports (s : State) (x : Store) : (s.setStore x).ports = s.ports := rfl

@[simp] theorem State.setStore_notices (s : State) (x : Store) : (s.setStore x).notices = s.notices := rfl

@[simp] theorem State.setStore_inReset (s : State) (x : Store) : (s.setStore x).inReset = s.inReset := rfl

@[simp] theorem State.setStore_resets (s : State) (x : Store) : (s.setStore x).resets = s.resets := rfl

@[simp] theorem State.setStore_draws (s : State) (x : Store) : (s.setStore x).draws = s.draws := rfl

@[simp] theorem State.setStore_pending (s : State) (x : Store) : (s.setStore x).pending = s.pending := rfl

@[simp] theorem State.setPort_store (s : State) (p : PortId) (x : Port) : (s.setPort p x).store = s.store := rfl

@[simp] theorem State.setPort_image (s : State) (p : PortId) (x : Port) : (s.setPort p x).image = s.image := rfl

@[simp] theorem State.setPort_arbiter (s : State) (p : PortId) (x : Port) : (s.setPort p x).arbiter = s.arbiter := rfl

@[simp] theorem State.setPort_notices (s : State) (p : PortId) (x : Port) : (s.setPort p x).notices = s.notices := rfl

@[simp] theorem State.setPort_inReset (s : State) (p : PortId) (x : Port) : (s.setPort p x).inReset = s.inReset := rfl

@[simp] theorem State.setPort_resets (s : State) (p : PortId) (x : Port) : (s.setPort p x).resets = s.resets := rfl

@[simp] theorem State.setPort_draws (s : State) (p : PortId) (x : Port) : (s.setPort p x).draws = s.draws := rfl

@[simp] theorem State.setPort_pending (s : State) (p : PortId) (x : Port) : (s.setPort p x).pending = s.pending := rfl

@[simp] theorem State.setNotice_store (s : State) (p : PortId) (x : NoticePort) : (s.setNotice p x).store = s.store := rfl

@[simp] theorem State.setNotice_image (s : State) (p : PortId) (x : NoticePort) : (s.setNotice p x).image = s.image := rfl

@[simp] theorem State.setNotice_arbiter (s : State) (p : PortId) (x : NoticePort) : (s.setNotice p x).arbiter = s.arbiter := rfl

@[simp] theorem State.setNotice_ports (s : State) (p : PortId) (x : NoticePort) : (s.setNotice p x).ports = s.ports := rfl

@[simp] theorem State.setNotice_inReset (s : State) (p : PortId) (x : NoticePort) : (s.setNotice p x).inReset = s.inReset := rfl

@[simp] theorem State.setNotice_resets (s : State) (p : PortId) (x : NoticePort) : (s.setNotice p x).resets = s.resets := rfl

@[simp] theorem State.setNotice_draws (s : State) (p : PortId) (x : NoticePort) : (s.setNotice p x).draws = s.draws := rfl

@[simp] theorem State.setNotice_pending (s : State) (p : PortId) (x : NoticePort) : (s.setNotice p x).pending = s.pending := rfl

@[simp] theorem State.setStore_store (s : State) (x : Store) : (s.setStore x).store = x := rfl

@[simp] theorem State.setPort_ports (s : State) (p : PortId) (x : Port) : (s.setPort p x).ports = s.ports.set p x := rfl

@[simp] theorem State.setNotice_notices (s : State) (p : PortId) (x : NoticePort) :
    (s.setNotice p x).notices = s.notices.set p x := rfl

/-! ## The gap timer (R123, R124) -/

@[simp] theorem Arbiter.restartGap_gap (x : Arbiter) : x.restartGap.gap = some 25 := rfl

@[simp] theorem Arbiter.restartGap_sinceCross (x : Arbiter) : x.restartGap.sinceCross = some 0 := rfl

@[simp] theorem Arbiter.restartGap_overtaken (x : Arbiter) :
    x.restartGap.overtaken = (x.overtaken || decide (x.gap = some 0)) := rfl

@[simp] theorem Arbiter.restartGap_present (x : Arbiter) : x.restartGap.present = x.present := rfl

@[simp] theorem Arbiter.restartGap_restoration (x : Arbiter) : x.restartGap.restoration = x.restoration := rfl

@[simp] theorem Arbiter.restartGap_position (x : Arbiter) : x.restartGap.position = x.position := rfl

/-- All a restart changes: the running time, the time since the last zero-cross, and the mark of an overtaken expiry. -/
theorem Arbiter.restartGap_rest (x : Arbiter) :
    { x.restartGap with gap := x.gap, sinceCross := x.sinceCross, overtaken := x.overtaken } = x := rfl

/-- An overtaken expiry is dropped (R124). -/
@[simp] theorem State.gapExpiry_of_overtaken (s : State) (h : s.arbiter.overtaken = true) :
    s.gapExpiry = { s with arbiter := { s.arbiter with overtaken := false } } := by
  simp [State.gapExpiry, h]

/-- Any other expiry is the timer's running out (R124, R125). -/
@[simp] theorem State.gapExpiry_of_not_overtaken (s : State) (h : s.arbiter.overtaken = false) :
    s.gapExpiry = s.gapRunOut := by
  simp [State.gapExpiry, h]

end Sys2Proof.Machine
end

