-- ==== Sys2Proof/Laws/Ops.lean ====
section
/-! SUPPORT. What the shared operations over step memory, the recipe table, the notices and the extents do. -/

namespace Sys2Proof.Machine

open Sys2Proof

/-! ## Step memory -/

/-- A read after a write gives the record written at its address, and what was there at every other (R7). -/
theorem StepMemory.read_write (mem : List (Nat × Record)) (a a' : Nat) (r : Record) :
    StepMemory.read (StepMemory.write mem a r) a' = if a' = a then some r else StepMemory.read mem a' := by
  induction mem with
  | nil => simp [StepMemory.write, StepMemory.read, eq_comm]
  | cons h t ih =>
    obtain ⟨k, q⟩ := h
    simp only [StepMemory.write]
    split
    · simp only [StepMemory.read]; grind
    · split
      · subst_vars; simp only [StepMemory.read]; grind
      · simp only [StepMemory.read, ih]; grind

/-- Memory in canonical form after its first entry is in canonical form. -/
theorem StepMemory.wf_tail (p : Nat × Record) (mem : List (Nat × Record)) (h : StepMemory.wf (p :: mem) = true) :
    StepMemory.wf mem = true := by
  cases mem with
  | nil => rfl
  | cons q rest => simp [StepMemory.wf] at h; exact h.2

/-- The first entry of memory in canonical form lies below 256. -/
theorem StepMemory.wf_head (p : Nat × Record) (mem : List (Nat × Record)) (h : StepMemory.wf (p :: mem) = true) :
    p.1 < 256 := by
  induction mem generalizing p with
  | nil => simpa [StepMemory.wf] using h
  | cons q rest ih =>
    simp only [StepMemory.wf, Bool.and_eq_true, decide_eq_true_eq] at h
    exact lt_trans h.1 (ih q h.2)

/-- A write below 256 keeps the canonical form of step memory. -/
theorem StepMemory.wf_write (mem : List (Nat × Record)) (a : Nat) (r : Record) (ha : a < 256)
    (h : StepMemory.wf mem = true) : StepMemory.wf (StepMemory.write mem a r) = true := by
  induction mem with
  | nil => simpa [StepMemory.write, StepMemory.wf] using ha
  | cons p t ih =>
    obtain ⟨k, q⟩ := p
    have ht := StepMemory.wf_tail _ _ h
    have hk : k < 256 := StepMemory.wf_head _ _ h
    simp only [StepMemory.write]
    split
    · simp [StepMemory.wf, *]
    · split
      · subst_vars; cases t <;> simpa [StepMemory.wf] using h
      · have hw := ih ht
        cases t with
        | nil => simp [StepMemory.write, StepMemory.wf, ha]; omega
        | cons p' t' =>
          obtain ⟨k', q'⟩ := p'
          have hkk : k < k' := by simp [StepMemory.wf] at h; exact h.1
          simp only [StepMemory.write] at hw ⊢
          split at hw <;> rename_i h1
          · simp only [h1, if_true, StepMemory.wf, Bool.and_eq_true, decide_eq_true_eq] at hw ⊢
            exact ⟨by omega, hw⟩
          · split at hw <;> rename_i h2
            · subst h2; simp only [lt_irrefl, if_false, if_true, StepMemory.wf, Bool.and_eq_true, decide_eq_true_eq] at hw ⊢
              exact ⟨hkk, hw⟩
            · simp only [h1, h2, if_false, StepMemory.wf, Bool.and_eq_true, decide_eq_true_eq] at hw ⊢
              exact ⟨hkk, hw⟩

/-! ## The recipe table -/

/-- The entries after one of the eight is replaced (R11). -/
theorem Store.entry_setEntry (st : Store) (slot n : Nat) (e : Entry) (h : slot < 8) :
    (st.setEntry slot e).entry n = if n = slot then e else st.entry n := by
  simp only [Store.entry, Store.setEntry, Vector.toList_setIfInBounds, List.getD_eq_getElem?_getD, List.getElem?_set]
  by_cases hn : n = slot
  · simp [hn, h]
  · simp [hn, Ne.symm hn]

/-- A slot beyond the eight reads as FREE. -/
theorem Store.entry_beyond (st : Store) (n : Nat) (h : 8 ≤ n) : st.entry n = .free := by
  have hl : st.table.toList.length ≤ n := by simpa using h
  simp only [Store.entry, List.getD_eq_getElem?_getD, List.getElem?_eq_none hl, Option.getD_none]

@[simp] theorem Store.setEntry_mem (st : Store) (slot : Nat) (e : Entry) : (st.setEntry slot e).mem = st.mem := rfl

@[simp] theorem Store.setEntry_free (st : Store) (slot : Nat) (e : Entry) : (st.setEntry slot e).free = st.free := rfl

@[simp] theorem Store.freeEntry_mem (st : Store) (slot start length : Nat) :
    (st.freeEntry slot start length).mem = st.mem := rfl

/-! ## Extents -/

/-- Joining two extents that touch keeps what they cover. -/
theorem joinFront_covers (e : Extent) (rest : List Extent) (a : Nat) :
    (joinFront e rest).countP (fun x => x.covers a) = (e :: rest).countP (fun x => x.covers a) := by
  cases rest with
  | nil => rfl
  | cons f fs =>
    simp only [joinFront]
    split
    · rename_i h
      simp only [List.countP_cons, Extent.covers, Bool.and_eq_true, decide_eq_true_eq]
      split <;> split <;> split <;> omega
    · rfl

/-- A returned extent joins what the free list covers (R10). -/
theorem returnExtent_covers (free : List Extent) (e : Extent) (a : Nat) :
    (returnExtent free e).countP (fun x => x.covers a) = (e :: free).countP (fun x => x.covers a) := by
  induction free with
  | nil => rfl
  | cons f fs ih =>
    simp only [returnExtent]
    split
    · rw [joinFront_covers]
    · rw [joinFront_covers, List.countP_cons, ih]; simp only [List.countP_cons]; omega

/-! ## Notices -/

/-- The fifteen cause numbers are 0 to 14 (R172). -/
theorem Cause.number_lt (c : Cause) : c.number < 15 := by
  cases c with
  | ofBowl b k => cases b <;> cases k <;> decide
  | budgetShort => decide
  | mains => decide
  | storeDone => decide

/-- No two causes share a number (R172). -/
theorem Cause.number_injective {c d : Cause} (h : c.number = d.number) : c = d := by
  rcases c with ⟨b, k⟩ | _ | _ | _ <;> rcases d with ⟨b', k'⟩ | _ | _ | _ <;> first | rfl | skip
  all_goals
    first
    | (cases b <;> cases k <;> cases b' <;> cases k' <;> first | rfl | (exact absurd h (by decide)))
    | (cases b <;> cases k <;> exact absurd h (by decide))
    | (cases b' <;> cases k' <;> exact absurd h (by decide))
    | exact absurd h (by decide)

/-- The set of one cause holds that cause only (R172). -/
theorem Cause.getLsbD_mask (c : Cause) (i : Nat) (h : i < 15) : c.mask.getLsbD i = decide (i = c.number) := by
  have hc := c.number_lt
  simp only [Cause.mask, BitVec.getLsbD_ofNat, h, decide_true, Bool.true_and, Nat.testBit_two_pow]
  simp [eq_comm]

/-- The flags of both ports after a raising (R173). -/
theorem State.raise_flags (s : State) (c : Cause) (p : PortId) :
    ((s.raise c).notices.get p).flags = (s.notices.get p).flags ||| c.mask := by
  cases p <;> rfl

/-- A cause once raised stays set through another raising. -/
theorem State.raise_flag_mono (s : State) (c : Cause) (p : PortId) (i : Nat)
    (h : (s.notices.get p).flags.getLsbD i = true) : ((s.raise c).notices.get p).flags.getLsbD i = true := by
  rw [State.raise_flags]; simp [h]

/-- A raising sets its cause at both ports. -/
theorem State.raise_flag (s : State) (c : Cause) (p : PortId) :
    ((s.raise c).notices.get p).flags.getLsbD c.number = true := by
  have hc := c.number_lt
  rw [State.raise_flags]; simp [Cause.getLsbD_mask c _ hc]

end Sys2Proof.Machine
end

