-- ==== Sys2Proof/Laws/PerInstr.lean ====
section
/-! SUPPORT. Statements made of each command. ReadBack: a request's code, transfer and parameters are read back as that
request (R162). -/

namespace Sys2Proof

open Sys2Proof.Machine

/-- A code without an owner is no request of the table. -/
theorem requestOf_eq_none (code : Byte) (x : Xfer) (params : List Byte)
    (h : (ownerOf code.toNat x.port params).isNone = true) : requestOf code x params = none := by
  unfold requestOf
  split <;> first | rfl | (rename_i hc; simp [ownerOf, hc] at h)

namespace Laws.ReadBack

/-- The parts of a well-formed request are read back as it. -/
def Statement (i : Instr) : Prop :=
  ∀ (code : Byte) (x : Xfer) (params : List Byte), i.wf = true → i.requestParts = some (code, x, params) →
    (requestOf code x params).getD (.unknownRequest x code params) = i

/-- A request of the table is read back where its code names it. -/
theorem of_parts {i : Instr} {c : Byte} {y : Xfer} {ps : List Byte} (hp : i.requestParts = some (c, y, ps))
    (hr : requestOf c y ps = some i) : Statement i := by
  intro code x params _ h
  rw [hp] at h
  obtain ⟨rfl, rfl, rfl⟩ : c = code ∧ y = x ∧ ps = params := by simpa using h
  rw [hr]; rfl

/-- A command without parts says nothing. -/
theorem of_none {i : Instr} (hp : i.requestParts = none) : Statement i := by
  intro code x params _ h
  rw [hp] at h; cases h

theorem nop (x : Xfer) (params : List Byte) : Statement (.nop x params) := of_parts rfl rfl

theorem getStatus (x : Xfer) (params : List Byte) : Statement (.getStatus x params) := of_parts rfl rfl

theorem readPage (x : Xfer) (params : List Byte) : Statement (.readPage x params) := of_parts rfl rfl

theorem getNotices (x : Xfer) (params : List Byte) : Statement (.getNotices x params) := of_parts rfl rfl

theorem ackNotice (x : Xfer) (params : List Byte) : Statement (.ackNotice x params) := of_parts rfl rfl

theorem setNotice (x : Xfer) (params : List Byte) : Statement (.setNotice x params) := of_parts rfl rfl

theorem setThreshold (x : Xfer) (params : List Byte) : Statement (.setThreshold x params) := of_parts rfl rfl

theorem resetPort (x : Xfer) (params : List Byte) : Statement (.resetPort x params) := of_parts rfl rfl

theorem openRecipe (x : Xfer) (params : List Byte) : Statement (.openRecipe x params) := of_parts rfl rfl

theorem writeStep (x : Xfer) (params : List Byte) : Statement (.writeStep x params) := of_parts rfl rfl

theorem sealRecipe (x : Xfer) (params : List Byte) : Statement (.sealRecipe x params) := of_parts rfl rfl

theorem discardRecipe (x : Xfer) (params : List Byte) : Statement (.discardRecipe x params) := of_parts rfl rfl

theorem unloadRecipe (x : Xfer) (params : List Byte) : Statement (.unloadRecipe x params) := of_parts rfl rfl

theorem listRecipes (x : Xfer) (params : List Byte) : Statement (.listRecipes x params) := of_parts rfl rfl

theorem start (x : Xfer) (params : List Byte) : Statement (.start x params) := of_parts rfl rfl

theorem manual (x : Xfer) (params : List Byte) : Statement (.manual x params) := of_parts rfl rfl

theorem pause (x : Xfer) (params : List Byte) : Statement (.pause x params) := of_parts rfl rfl

theorem resume (x : Xfer) (params : List Byte) : Statement (.resume x params) := of_parts rfl rfl

theorem stop (x : Xfer) (params : List Byte) : Statement (.stop x params) := of_parts rfl rfl

theorem skipStep (x : Xfer) (params : List Byte) : Statement (.skipStep x params) := of_parts rfl rfl

theorem answer (x : Xfer) (params : List Byte) : Statement (.answer x params) := of_parts rfl rfl

theorem adjust (x : Xfer) (params : List Byte) : Statement (.adjust x params) := of_parts rfl rfl

theorem tare (x : Xfer) (params : List Byte) : Statement (.tare x params) := of_parts rfl rfl

theorem clearFault (x : Xfer) (params : List Byte) : Statement (.clearFault x params) := of_parts rfl rfl

theorem setBowlConfig (x : Xfer) (params : List Byte) : Statement (.setBowlConfig x params) := of_parts rfl rfl

theorem calibrateZero (x : Xfer) (params : List Byte) : Statement (.calibrateZero x params) := of_parts rfl rfl

theorem calibrateSpan (x : Xfer) (params : List Byte) : Statement (.calibrateSpan x params) := of_parts rfl rfl

theorem abortCalibration (x : Xfer) (params : List Byte) : Statement (.abortCalibration x params) := of_parts rfl rfl

theorem saveCalibration (x : Xfer) (params : List Byte) : Statement (.saveCalibration x params) := of_parts rfl rfl

theorem setPowerCap (x : Xfer) (params : List Byte) : Statement (.setPowerCap x params) := of_parts rfl rfl

theorem setArbitration (x : Xfer) (params : List Byte) : Statement (.setArbitration x params) := of_parts rfl rfl

theorem badFrame (p : PortId) (bytes : List Byte) : Statement (.badFrame p bytes) := of_none rfl

theorem unknownRequest (x : Xfer) (code : Byte) (params : List Byte) : Statement (.unknownRequest x code params) := by
  intro c y ps hw h
  obtain ⟨rfl, rfl, rfl⟩ : code = c ∧ x = y ∧ params = ps := by simpa [Instr.requestParts] using h
  have ho : (ownerOf code.toNat x.port params).isNone = true := by
    simp only [Instr.wf, Bool.and_eq_true] at hw; exact hw.2
  rw [requestOf_eq_none _ _ _ ho]; rfl

theorem emptyTransfer (p : PortId) (bits : Fin 8) : Statement (.emptyTransfer p bits) := of_none rfl

theorem powerOn : Statement .powerOn := of_none rfl

theorem resetPinAssert : Statement .resetPinAssert := of_none rfl

theorem resetPinRelease : Statement .resetPinRelease := of_none rfl

theorem autoloadComplete (r : AutoloadRead) : Statement (.autoloadComplete r) := of_none rfl

theorem loadCellConversion (b : BowlId) (sample : BitVec 24) : Statement (.loadCellConversion b sample) := of_none rfl

theorem holdOffExpiry (b : BowlId) : Statement (.holdOffExpiry b) := of_none rfl

theorem temperatureConversion (b : BowlId) (code : BitVec 12) : Statement (.temperatureConversion b code) := of_none rfl

theorem relaySettleExpiry (b : BowlId) : Statement (.relaySettleExpiry b) := of_none rfl

theorem configSettleExpiry (b : BowlId) : Statement (.configSettleExpiry b) := of_none rfl

theorem tachoMeasurement (b : BowlId) (pulses : Nat) : Statement (.tachoMeasurement b pulses) := of_none rfl

theorem standstillTimerExpiry (b : BowlId) : Statement (.standstillTimerExpiry b) := of_none rfl

theorem stallTimerExpiry (b : BowlId) : Statement (.stallTimerExpiry b) := of_none rfl

theorem lockTimerExpiry (b : BowlId) : Statement (.lockTimerExpiry b) := of_none rfl

theorem rampStep (b : BowlId) : Statement (.rampStep b) := of_none rfl

theorem intervalPhaseChange (b : BowlId) : Statement (.intervalPhaseChange b) := of_none rfl

theorem switchLevelChange (b : BowlId) (sw : SwitchId) (level : SwitchLevel) : Statement (.switchLevelChange b sw level) := of_none rfl

theorem lidChange (b : BowlId) (level : SwitchLevel) : Statement (.lidChange b level) := of_none rfl

theorem confirmSwitchChange (b : BowlId) (level : SwitchLevel) : Statement (.confirmSwitchChange b level) := of_none rfl

theorem switchFirstReading (b : BowlId) (sw : SwitchId) (level : SwitchLevel) : Statement (.switchFirstReading b sw level) := of_none rfl

theorem zeroCrossArrival (since : Nat) : Statement (.zeroCrossArrival since) := of_none rfl

theorem gapTimerExpiry : Statement .gapTimerExpiry := of_none rfl

theorem timeExpiry (b : BowlId) : Statement (.timeExpiry b) := of_none rfl

theorem holdLimitExpiry (b : BowlId) : Statement (.holdLimitExpiry b) := of_none rfl

theorem endPendingCompletion (b : BowlId) : Statement (.endPendingCompletion b) := of_none rfl

theorem eepromPageWriteDone (acked : Bool) : Statement (.eepromPageWriteDone acked) := of_none rfl

theorem eepromPageTimeout : Statement .eepromPageTimeout := of_none rfl

theorem portReady (p : PortId) : Statement (.portReady p) := of_none rfl

end Laws.ReadBack

end Sys2Proof
end

