-- ==== Sys2Proof/Laws/Ports.lean ====
section
/-! SUPPORT. What a transfer does to its port, and what a request command answers. -/

namespace Sys2Proof.Machine

open Sys2Proof

/-- What clocking bytes one after another leaves in a port, from any starting point. -/
theorem Port.foldl_clock (bytes : List Byte) (q : Port) :
    bytes.foldl Port.clock q =
      { q with
        rx := q.rx ++ bytes.take (40 - q.rxCount)
        rxCount := q.rxCount + bytes.length
        outPos := q.outPos + bytes.length
        sent := q.sent ++ q.sends bytes.length } := by
  induction bytes generalizing q with
  | nil => simp [Port.sends]
  | cons b rest ih =>
    rw [List.foldl_cons, ih]
    have hs : q.sends (rest.length + 1) = q.outByte :: (q.clock b).sends rest.length := by
      simp [Port.sends, Port.outByte, Port.clock, List.range_succ_eq_map, Function.comp_def, Nat.add_assoc, Nat.add_comm 1]
    simp only [Port.clock, List.length_cons, Port.mk.injEq, hs]
    refine ⟨?_, by omega, trivial, by omega, trivial, by simp⟩
    split
    · have : 40 - q.rxCount = (40 - (q.rxCount + 1)) + 1 := by omega
      simp [this]
    · have h0 : 40 - q.rxCount = 0 := by omega
      have h1 : 40 - (q.rxCount + 1) = 0 := by omega
      simp [h0, h1]

/-- The whole bytes of a transfer clocked into a port: at most 40 kept in all, every byte counted, and one byte sent for each
(R157). -/
theorem Port.clockAll_eq (q : Port) (bytes : List Byte) :
    q.clockAll bytes =
      { q with
        rx := q.rx ++ bytes.take (40 - q.rxCount)
        rxCount := q.rxCount + bytes.length
        outPos := q.outPos + bytes.length
        sent := q.sends bytes.length } := by
  simp [Port.clockAll, Port.foldl_clock, Port.sends]

/-- The release after a transfer of bytes leaves the port with the new response pending, empty and not ready. -/
theorem Port.release_clockAll (q : Port) (bytes : List Byte) (r : Response) :
    (q.clockAll bytes).release r = q.after bytes.length r := by
  simp [Port.clockAll_eq, Port.release, Port.after]

/-- Bytes received by an empty port. -/
theorem Port.clockAll_rx (q : Port) (bytes : List Byte) (h : q.empty) :
    (q.clockAll bytes).rx = bytes.take 40 ∧ (q.clockAll bytes).rxCount = bytes.length := by
  simp [Port.clockAll_eq, h.1, h.2]

/-- A transfer of at least one whole byte on a port that takes it: what is made of the bytes received becomes the state and
the pending response. -/
theorem State.transfer_eq (s : State) (p : PortId) (bytes : List Byte) (take : List Byte → Nat → State → State × Response)
    (h : (s.ports.get p).ready = true) (hb : bytes ≠ []) :
    s.transfer p bytes take =
      (take ((s.ports.get p).clockAll bytes).rx ((s.ports.get p).clockAll bytes).rxCount s).1.setPort p
        ((s.ports.get p).after bytes.length
          (take ((s.ports.get p).clockAll bytes).rx ((s.ports.get p).clockAll bytes).rxCount s).2) := by
  have hl : bytes.length ≠ 0 := by simpa using hb
  have hc : ((s.ports.get p).clockAll bytes).rxCount ≠ 0 := by simp [Port.clockAll_eq, hl]
  simp [State.transfer, h, hc, Port.release_clockAll]

/-- A transfer framed while the port is not ready changes nothing (R171). -/
theorem State.transfer_early (s : State) (p : PortId) (bytes : List Byte)
    (take : List Byte → Nat → State → State × Response) (h : (s.ports.get p).ready = false) :
    s.transfer p bytes take = s := by
  simp [State.transfer, h]

@[simp] theorem requestFrame_length (code tag : Byte) (params : List Byte) :
    (requestFrame code tag params).length = params.length + 5 := by
  simp [requestFrame, u8]

theorem requestFrame_ne_nil (code tag : Byte) (params rest : List Byte) : requestFrame code tag params ++ rest ≠ [] := by
  simp [requestFrame]

/-- An event outside reset has its effect. -/
theorem whileReleased_released (f : State → State) (s : State) (h : s.inReset = false) : whileReleased f s = .next (f s) := by
  simp [whileReleased, h]

/-- An event in reset changes nothing. -/
theorem whileReleased_held (f : State → State) (s : State) (h : s.inReset = true) : whileReleased f s = .next s := by
  simp [whileReleased, h]

/-- A request command on a port that takes it: the owner's state, with the owner's answer pending at the port. -/
theorem takeRequest_next (code : Byte) (x : Xfer) (params : List Byte) (owner : State → Reply) (s : State)
    (h : s.takes x.port) :
    takeRequest code x params owner s =
      .next ((owner s).state.setPort x.port
        ((s.ports.get x.port).after (params.length + 5 + x.fill) ⟨x.tag, (owner s).status, (owner s).results⟩)) := by
  rw [takeRequest, whileReleased_released _ _ h.1, State.request,
    State.transfer_eq _ _ _ _ h.2 (requestFrame_ne_nil _ _ _ _)]
  simp [answerWith]

/-- The same where the owner leaves the ports as they were. -/
theorem takeRequest_answered (code : Byte) (x : Xfer) (params : List Byte) (owner : State → Reply) (s : State)
    (h : s.takes x.port) (hp : (owner s).state.ports = s.ports) :
    takeRequest code x params owner s =
      .next ((owner s).state.answered x params (owner s).status (owner s).results) := by
  rw [takeRequest_next _ _ _ _ _ h, State.answered, hp]

end Sys2Proof.Machine
end

