-- ==== Sys2Proof/Laws/Stirring.lean ====
section
/-! SUPPORT. What a formation of the target does to a stirring and lid unit: the fields it leaves, and that it leaves the motor
safe. -/

namespace Sys2Proof.Machine

open Sys2Proof

/-! ## The parts of a formation -/

@[simp] theorem StirUnit.cutTo_order (u : StirUnit) (v : Nat) : (u.cutTo v).order = u.order := by
  unfold StirUnit.cutTo; split <;> rfl
@[simp] theorem StirUnit.cutTo_phaseOn (u : StirUnit) (v : Nat) : (u.cutTo v).phaseOn = u.phaseOn := by
  unfold StirUnit.cutTo; split <;> rfl
@[simp] theorem StirUnit.cutTo_phaseTimer (u : StirUnit) (v : Nat) : (u.cutTo v).phaseTimer = u.phaseTimer := by
  unfold StirUnit.cutTo; split <;> rfl
@[simp] theorem StirUnit.cutTo_mainsHold (u : StirUnit) (v : Nat) : (u.cutTo v).mainsHold = u.mainsHold := by
  unfold StirUnit.cutTo; split <;> rfl
@[simp] theorem StirUnit.cutTo_ceiling (u : StirUnit) (v : Nat) : (u.cutTo v).ceiling = u.ceiling := by
  unfold StirUnit.cutTo; split <;> rfl
@[simp] theorem StirUnit.cutTo_measured (u : StirUnit) (v : Nat) : (u.cutTo v).measured = u.measured := by
  unfold StirUnit.cutTo; split <;> rfl
@[simp] theorem StirUnit.cutTo_standstill (u : StirUnit) (v : Nat) : (u.cutTo v).standstill = u.standstill := by
  unfold StirUnit.cutTo; split <;> rfl
@[simp] theorem StirUnit.cutTo_lid (u : StirUnit) (v : Nat) : (u.cutTo v).lid = u.lid := by
  unfold StirUnit.cutTo; split <;> rfl
@[simp] theorem StirUnit.cutTo_confirm (u : StirUnit) (v : Nat) : (u.cutTo v).confirm = u.confirm := by
  unfold StirUnit.cutTo; split <;> rfl
@[simp] theorem StirUnit.cutTo_hot (u : StirUnit) (v : Nat) : (u.cutTo v).hot = u.hot := by
  unfold StirUnit.cutTo; split <;> rfl
@[simp] theorem StirUnit.cutTo_phaseMs (u : StirUnit) (v : Nat) : (u.cutTo v).phaseMs = u.phaseMs := by
  unfold StirUnit.cutTo; split <;> rfl
@[simp] theorem StirUnit.cutTo_rampMs (u : StirUnit) (v : Nat) : (u.cutTo v).rampMs = u.rampMs := by
  unfold StirUnit.cutTo; split <;> rfl
@[simp] theorem StirUnit.cutTo_drive (u : StirUnit) (v : Nat) : (u.cutTo v).drive = u.drive := by
  unfold StirUnit.cutTo; split <;> rfl
@[simp] theorem StirUnit.cutTo_pendingDir (u : StirUnit) (v : Nat) : (u.cutTo v).pendingDir = u.pendingDir := by
  unfold StirUnit.cutTo; split <;> rfl
@[simp] theorem StirUnit.cutTo_reversalHold (u : StirUnit) (v : Nat) : (u.cutTo v).reversalHold = u.reversalHold := by
  unfold StirUnit.cutTo; split <;> rfl
@[simp] theorem StirUnit.cutTo_lock (u : StirUnit) (v : Nat) : (u.cutTo v).lock = u.lock := by
  unfold StirUnit.cutTo; split <;> rfl
@[simp] theorem StirUnit.cutTo_lockTimer (u : StirUnit) (v : Nat) : (u.cutTo v).lockTimer = u.lockTimer := by
  unfold StirUnit.cutTo; split <;> rfl
@[simp] theorem StirUnit.cutTo_target (u : StirUnit) (v : Nat) : (u.cutTo v).target = u.target := by
  unfold StirUnit.cutTo; split <;> rfl

@[simp] theorem StirUnit.cuts_order (u : StirUnit) : u.cuts.order = u.order := by
  unfold StirUnit.cuts; split
  · simp
  · split <;> simp
@[simp] theorem StirUnit.cuts_phaseOn (u : StirUnit) : u.cuts.phaseOn = u.phaseOn := by
  unfold StirUnit.cuts; split
  · simp
  · split <;> simp
@[simp] theorem StirUnit.cuts_phaseTimer (u : StirUnit) : u.cuts.phaseTimer = u.phaseTimer := by
  unfold StirUnit.cuts; split
  · simp
  · split <;> simp
@[simp] theorem StirUnit.cuts_mainsHold (u : StirUnit) : u.cuts.mainsHold = u.mainsHold := by
  unfold StirUnit.cuts; split
  · simp
  · split <;> simp
@[simp] theorem StirUnit.cuts_ceiling (u : StirUnit) : u.cuts.ceiling = u.ceiling := by
  unfold StirUnit.cuts; split
  · simp
  · split <;> simp
@[simp] theorem StirUnit.cuts_measured (u : StirUnit) : u.cuts.measured = u.measured := by
  unfold StirUnit.cuts; split
  · simp
  · split <;> simp
@[simp] theorem StirUnit.cuts_standstill (u : StirUnit) : u.cuts.standstill = u.standstill := by
  unfold StirUnit.cuts; split
  · simp
  · split <;> simp
@[simp] theorem StirUnit.cuts_lid (u : StirUnit) : u.cuts.lid = u.lid := by
  unfold StirUnit.cuts; split
  · simp
  · split <;> simp
@[simp] theorem StirUnit.cuts_confirm (u : StirUnit) : u.cuts.confirm = u.confirm := by
  unfold StirUnit.cuts; split
  · simp
  · split <;> simp
@[simp] theorem StirUnit.cuts_hot (u : StirUnit) : u.cuts.hot = u.hot := by
  unfold StirUnit.cuts; split
  · simp
  · split <;> simp
@[simp] theorem StirUnit.cuts_phaseMs (u : StirUnit) : u.cuts.phaseMs = u.phaseMs := by
  unfold StirUnit.cuts; split
  · simp
  · split <;> simp
@[simp] theorem StirUnit.cuts_rampMs (u : StirUnit) : u.cuts.rampMs = u.rampMs := by
  unfold StirUnit.cuts; split
  · simp
  · split <;> simp
@[simp] theorem StirUnit.cuts_drive (u : StirUnit) : u.cuts.drive = u.drive := by
  unfold StirUnit.cuts; split
  · simp
  · split <;> simp
@[simp] theorem StirUnit.cuts_pendingDir (u : StirUnit) : u.cuts.pendingDir = u.pendingDir := by
  unfold StirUnit.cuts; split
  · simp
  · split <;> simp
@[simp] theorem StirUnit.cuts_reversalHold (u : StirUnit) : u.cuts.reversalHold = u.reversalHold := by
  unfold StirUnit.cuts; split
  · simp
  · split <;> simp
@[simp] theorem StirUnit.cuts_lock (u : StirUnit) : u.cuts.lock = u.lock := by
  unfold StirUnit.cuts; split
  · simp
  · split <;> simp
@[simp] theorem StirUnit.cuts_lockTimer (u : StirUnit) : u.cuts.lockTimer = u.lockTimer := by
  unfold StirUnit.cuts; split
  · simp
  · split <;> simp
@[simp] theorem StirUnit.cuts_target (u : StirUnit) : u.cuts.target = u.target := by
  unfold StirUnit.cuts; split
  · simp
  · split <;> simp

@[simp] theorem StirUnit.formPass_order (u : StirUnit) : u.formPass.1.order = u.order := by
  simp [StirUnit.formPass]
@[simp] theorem StirUnit.formPass_phaseOn (u : StirUnit) : u.formPass.1.phaseOn = u.phaseOn := by
  simp [StirUnit.formPass]
@[simp] theorem StirUnit.formPass_phaseTimer (u : StirUnit) : u.formPass.1.phaseTimer = u.phaseTimer := by
  simp [StirUnit.formPass]
@[simp] theorem StirUnit.formPass_mainsHold (u : StirUnit) : u.formPass.1.mainsHold = u.mainsHold := by
  simp [StirUnit.formPass]
@[simp] theorem StirUnit.formPass_ceiling (u : StirUnit) : u.formPass.1.ceiling = u.ceiling := by
  simp [StirUnit.formPass]
@[simp] theorem StirUnit.formPass_measured (u : StirUnit) : u.formPass.1.measured = u.measured := by
  simp [StirUnit.formPass]
@[simp] theorem StirUnit.formPass_standstill (u : StirUnit) : u.formPass.1.standstill = u.standstill := by
  simp [StirUnit.formPass]
@[simp] theorem StirUnit.formPass_lid (u : StirUnit) : u.formPass.1.lid = u.lid := by
  simp [StirUnit.formPass]
@[simp] theorem StirUnit.formPass_confirm (u : StirUnit) : u.formPass.1.confirm = u.confirm := by
  simp [StirUnit.formPass]
@[simp] theorem StirUnit.formPass_hot (u : StirUnit) : u.formPass.1.hot = u.hot := by
  simp [StirUnit.formPass]
@[simp] theorem StirUnit.formPass_phaseMs (u : StirUnit) : u.formPass.1.phaseMs = u.phaseMs := by
  simp [StirUnit.formPass]
@[simp] theorem StirUnit.formPass_rampMs (u : StirUnit) : u.formPass.1.rampMs = u.rampMs := by
  simp [StirUnit.formPass]
@[simp] theorem StirUnit.formPass_drive (u : StirUnit) : u.formPass.1.drive = u.drive := by
  simp [StirUnit.formPass]
@[simp] theorem StirUnit.formPass_pendingDir (u : StirUnit) : u.formPass.1.pendingDir = u.pendingDir := by
  simp [StirUnit.formPass]
@[simp] theorem StirUnit.formPass_reversalHold (u : StirUnit) : u.formPass.1.reversalHold = u.reversalHold := by
  simp [StirUnit.formPass]
@[simp] theorem StirUnit.formPass_lock (u : StirUnit) : u.formPass.1.lock = u.lock := by
  simp [StirUnit.formPass]
@[simp] theorem StirUnit.formPass_lockTimer (u : StirUnit) : u.formPass.1.lockTimer = u.lockTimer := by
  simp [StirUnit.formPass]

@[simp] theorem StirUnit.completeReversal_order (u : StirUnit) : u.completeReversal.order = u.order := by
  rfl
@[simp] theorem StirUnit.completeReversal_phaseOn (u : StirUnit) : u.completeReversal.phaseOn = u.phaseOn := by
  rfl
@[simp] theorem StirUnit.completeReversal_phaseTimer (u : StirUnit) : u.completeReversal.phaseTimer = u.phaseTimer := by
  rfl
@[simp] theorem StirUnit.completeReversal_mainsHold (u : StirUnit) : u.completeReversal.mainsHold = u.mainsHold := by
  rfl
@[simp] theorem StirUnit.completeReversal_ceiling (u : StirUnit) : u.completeReversal.ceiling = u.ceiling := by
  rfl
@[simp] theorem StirUnit.completeReversal_measured (u : StirUnit) : u.completeReversal.measured = u.measured := by
  rfl
@[simp] theorem StirUnit.completeReversal_standstill (u : StirUnit) : u.completeReversal.standstill = u.standstill := by
  rfl
@[simp] theorem StirUnit.completeReversal_lid (u : StirUnit) : u.completeReversal.lid = u.lid := by
  rfl
@[simp] theorem StirUnit.completeReversal_confirm (u : StirUnit) : u.completeReversal.confirm = u.confirm := by
  rfl
@[simp] theorem StirUnit.completeReversal_hot (u : StirUnit) : u.completeReversal.hot = u.hot := by
  rfl
@[simp] theorem StirUnit.completeReversal_phaseMs (u : StirUnit) : u.completeReversal.phaseMs = u.phaseMs := by
  rfl
@[simp] theorem StirUnit.completeReversal_rampMs (u : StirUnit) : u.completeReversal.rampMs = u.rampMs := by
  rfl
@[simp] theorem StirUnit.completeReversal_lock (u : StirUnit) : u.completeReversal.lock = u.lock := by
  rfl
@[simp] theorem StirUnit.completeReversal_lockTimer (u : StirUnit) : u.completeReversal.lockTimer = u.lockTimer := by
  rfl
@[simp] theorem StirUnit.completeReversal_target (u : StirUnit) : u.completeReversal.target = u.target := by
  rfl
@[simp] theorem StirUnit.completeReversal_setpoint (u : StirUnit) : u.completeReversal.setpoint = u.setpoint := by
  rfl
@[simp] theorem StirUnit.completeReversal_stall (u : StirUnit) : u.completeReversal.stall = u.stall := by
  rfl

@[simp] theorem StirUnit.release_order (u : StirUnit) : u.release.order = u.order := by
  rfl
@[simp] theorem StirUnit.release_phaseOn (u : StirUnit) : u.release.phaseOn = u.phaseOn := by
  rfl
@[simp] theorem StirUnit.release_phaseTimer (u : StirUnit) : u.release.phaseTimer = u.phaseTimer := by
  rfl
@[simp] theorem StirUnit.release_mainsHold (u : StirUnit) : u.release.mainsHold = u.mainsHold := by
  rfl
@[simp] theorem StirUnit.release_ceiling (u : StirUnit) : u.release.ceiling = u.ceiling := by
  rfl
@[simp] theorem StirUnit.release_measured (u : StirUnit) : u.release.measured = u.measured := by
  rfl
@[simp] theorem StirUnit.release_standstill (u : StirUnit) : u.release.standstill = u.standstill := by
  rfl
@[simp] theorem StirUnit.release_lid (u : StirUnit) : u.release.lid = u.lid := by
  rfl
@[simp] theorem StirUnit.release_confirm (u : StirUnit) : u.release.confirm = u.confirm := by
  rfl
@[simp] theorem StirUnit.release_hot (u : StirUnit) : u.release.hot = u.hot := by
  rfl
@[simp] theorem StirUnit.release_phaseMs (u : StirUnit) : u.release.phaseMs = u.phaseMs := by
  rfl
@[simp] theorem StirUnit.release_rampMs (u : StirUnit) : u.release.rampMs = u.rampMs := by
  rfl
@[simp] theorem StirUnit.release_drive (u : StirUnit) : u.release.drive = u.drive := by
  rfl
@[simp] theorem StirUnit.release_pendingDir (u : StirUnit) : u.release.pendingDir = u.pendingDir := by
  rfl
@[simp] theorem StirUnit.release_reversalHold (u : StirUnit) : u.release.reversalHold = u.reversalHold := by
  rfl
@[simp] theorem StirUnit.release_target (u : StirUnit) : u.release.target = u.target := by
  rfl
@[simp] theorem StirUnit.release_setpoint (u : StirUnit) : u.release.setpoint = u.setpoint := by
  rfl
@[simp] theorem StirUnit.release_stall (u : StirUnit) : u.release.stall = u.stall := by
  rfl

@[simp] theorem StirUnit.engage_order (u : StirUnit) : u.engage.order = u.order := by
  unfold StirUnit.engage; split <;> rfl
@[simp] theorem StirUnit.engage_phaseOn (u : StirUnit) : u.engage.phaseOn = u.phaseOn := by
  unfold StirUnit.engage; split <;> rfl
@[simp] theorem StirUnit.engage_phaseTimer (u : StirUnit) : u.engage.phaseTimer = u.phaseTimer := by
  unfold StirUnit.engage; split <;> rfl
@[simp] theorem StirUnit.engage_mainsHold (u : StirUnit) : u.engage.mainsHold = u.mainsHold := by
  unfold StirUnit.engage; split <;> rfl
@[simp] theorem StirUnit.engage_ceiling (u : StirUnit) : u.engage.ceiling = u.ceiling := by
  unfold StirUnit.engage; split <;> rfl
@[simp] theorem StirUnit.engage_measured (u : StirUnit) : u.engage.measured = u.measured := by
  unfold StirUnit.engage; split <;> rfl
@[simp] theorem StirUnit.engage_standstill (u : StirUnit) : u.engage.standstill = u.standstill := by
  unfold StirUnit.engage; split <;> rfl
@[simp] theorem StirUnit.engage_lid (u : StirUnit) : u.engage.lid = u.lid := by
  unfold StirUnit.engage; split <;> rfl
@[simp] theorem StirUnit.engage_confirm (u : StirUnit) : u.engage.confirm = u.confirm := by
  unfold StirUnit.engage; split <;> rfl
@[simp] theorem StirUnit.engage_hot (u : StirUnit) : u.engage.hot = u.hot := by
  unfold StirUnit.engage; split <;> rfl
@[simp] theorem StirUnit.engage_phaseMs (u : StirUnit) : u.engage.phaseMs = u.phaseMs := by
  unfold StirUnit.engage; split <;> rfl
@[simp] theorem StirUnit.engage_rampMs (u : StirUnit) : u.engage.rampMs = u.rampMs := by
  unfold StirUnit.engage; split <;> rfl
@[simp] theorem StirUnit.engage_drive (u : StirUnit) : u.engage.drive = u.drive := by
  unfold StirUnit.engage; split <;> rfl
@[simp] theorem StirUnit.engage_pendingDir (u : StirUnit) : u.engage.pendingDir = u.pendingDir := by
  unfold StirUnit.engage; split <;> rfl
@[simp] theorem StirUnit.engage_reversalHold (u : StirUnit) : u.engage.reversalHold = u.reversalHold := by
  unfold StirUnit.engage; split <;> rfl
@[simp] theorem StirUnit.engage_target (u : StirUnit) : u.engage.target = u.target := by
  unfold StirUnit.engage; split <;> rfl
@[simp] theorem StirUnit.engage_setpoint (u : StirUnit) : u.engage.setpoint = u.setpoint := by
  unfold StirUnit.engage; split <;> rfl
@[simp] theorem StirUnit.engage_stall (u : StirUnit) : u.engage.stall = u.stall := by
  unfold StirUnit.engage; split <;> rfl

/-- One pass of the formation keeps what the change before it keeps. -/
theorem StirUnit.formIf_keeps {α : Type} (u : StirUnit) (c : Bool) (change : StirUnit → StirUnit) (f : StirUnit → α)
    (hp : ∀ v : StirUnit, f v.formPass.1 = f v) (hc : f (change u) = f u) : f (u.formIf c change).1 = f u := by
  unfold StirUnit.formIf; split
  · rw [hp, hc]
  · rfl

/-- A formation keeps every field that its passes, a completed reversal, a release and an engagement all keep. -/
theorem StirUnit.form_keeps {α : Type} (u : StirUnit) (f : StirUnit → α) (hp : ∀ v : StirUnit, f v.formPass.1 = f v)
    (hr : ∀ v : StirUnit, f v.completeReversal = f v) (hl : ∀ v : StirUnit, f v.release = f v)
    (he : ∀ v : StirUnit, f v.engage = f v) : f u.form.1 = f u := by
  unfold StirUnit.form
  simp only []
  rw [StirUnit.formIf_keeps _ _ _ f hp (he _), StirUnit.formIf_keeps _ _ _ f hp (hl _),
    StirUnit.formIf_keeps _ _ _ f hp (hr _), hp]

/-! ## The fields a formation keeps -/

@[simp] theorem StirUnit.form_order (u : StirUnit) : u.form.1.order = u.order :=
  u.form_keeps StirUnit.order (by simp) (by simp) (by simp) (by simp)

@[simp] theorem StirUnit.form_phaseOn (u : StirUnit) : u.form.1.phaseOn = u.phaseOn :=
  u.form_keeps StirUnit.phaseOn (by simp) (by simp) (by simp) (by simp)

@[simp] theorem StirUnit.form_phaseTimer (u : StirUnit) : u.form.1.phaseTimer = u.phaseTimer :=
  u.form_keeps StirUnit.phaseTimer (by simp) (by simp) (by simp) (by simp)

@[simp] theorem StirUnit.form_mainsHold (u : StirUnit) : u.form.1.mainsHold = u.mainsHold :=
  u.form_keeps StirUnit.mainsHold (by simp) (by simp) (by simp) (by simp)

@[simp] theorem StirUnit.form_ceiling (u : StirUnit) : u.form.1.ceiling = u.ceiling :=
  u.form_keeps StirUnit.ceiling (by simp) (by simp) (by simp) (by simp)

@[simp] theorem StirUnit.form_measured (u : StirUnit) : u.form.1.measured = u.measured :=
  u.form_keeps StirUnit.measured (by simp) (by simp) (by simp) (by simp)

@[simp] theorem StirUnit.form_standstill (u : StirUnit) : u.form.1.standstill = u.standstill :=
  u.form_keeps StirUnit.standstill (by simp) (by simp) (by simp) (by simp)

@[simp] theorem StirUnit.form_lid (u : StirUnit) : u.form.1.lid = u.lid :=
  u.form_keeps StirUnit.lid (by simp) (by simp) (by simp) (by simp)

@[simp] theorem StirUnit.form_confirm (u : StirUnit) : u.form.1.confirm = u.confirm :=
  u.form_keeps StirUnit.confirm (by simp) (by simp) (by simp) (by simp)

@[simp] theorem StirUnit.form_hot (u : StirUnit) : u.form.1.hot = u.hot :=
  u.form_keeps StirUnit.hot (by simp) (by simp) (by simp) (by simp)

@[simp] theorem StirUnit.form_phaseMs (u : StirUnit) : u.form.1.phaseMs = u.phaseMs :=
  u.form_keeps StirUnit.phaseMs (by simp) (by simp) (by simp) (by simp)

@[simp] theorem StirUnit.form_rampMs (u : StirUnit) : u.form.1.rampMs = u.rampMs :=
  u.form_keeps StirUnit.rampMs (by simp) (by simp) (by simp) (by simp)

/-! ## The limits a formation enforces -/

/-- The formed target is 0 with the lid OPEN, and at most 1,200 rpm with the lock not CONFIRMED (R109). -/
theorem StirUnit.formedTarget_limits (u : StirUnit) :
    (u.lid.level = .opened → u.formedTarget = 0) ∧ (u.lock ≠ .confirmed → u.formedTarget ≤ 1200) := by
  refine ⟨fun h => ?_, fun h => by simp [StirUnit.formedTarget, StirUnit.lockLimited, h]⟩
  have h0 : u.freeSpeed = 0 := by simp [StirUnit.freeSpeed, h]
  have h1 : u.lockSpeed = 0 := by unfold StirUnit.lockSpeed; split <;> simp [h0]
  unfold StirUnit.formedTarget StirUnit.lockLimited; split <;> simp [h1]

/-- A cut leaves the setpoint at most at its speed. -/
theorem StirUnit.cutTo_setpoint (u : StirUnit) (v : Nat) : (u.cutTo v).setpoint = min u.setpoint v := by
  unfold StirUnit.cutTo; split <;> simp <;> omega

/-- One pass of the formation leaves the motor safe. -/
theorem StirUnit.formPass_safe (u : StirUnit) (h : u.lid.firstRead = false → u.lid.level = .opened) : u.formPass.1.Safe := by
  have ht : u.formPass.1.target = u.formedTarget := by simp [StirUnit.formPass]
  refine ⟨by simpa using h, fun hl => ?_, fun hl => ?_⟩
  · rw [StirUnit.formPass_lid] at hl
    refine ⟨by rw [ht]; exact u.formedTarget_limits.1 hl, ?_⟩
    simp [StirUnit.formPass, StirUnit.cuts, hl, StirUnit.cutTo_setpoint]
  · rw [StirUnit.formPass_lock] at hl
    refine ⟨by rw [ht]; exact u.formedTarget_limits.2 hl, ?_⟩
    simp only [StirUnit.formPass, StirUnit.cuts]
    split
    · rw [StirUnit.cutTo_setpoint]; omega
    · rw [StirUnit.cutTo_setpoint]; omega

/-- A further pass of the formation keeps the motor safe. -/
theorem StirUnit.formIf_safe (u : StirUnit) (c : Bool) (change : StirUnit → StirUnit) (hl : (change u).lid = u.lid)
    (h : u.Safe) : (u.formIf c change).1.Safe := by
  unfold StirUnit.formIf; split
  · exact StirUnit.formPass_safe _ (by rw [hl]; exact h.1)
  · exact h

/-- A formation leaves the motor safe (R109, R111). -/
theorem StirUnit.form_safe (u : StirUnit) (h : u.lid.firstRead = false → u.lid.level = .opened) : u.form.1.Safe := by
  unfold StirUnit.form
  simp only []
  exact StirUnit.formIf_safe _ _ _ (by simp)
    (StirUnit.formIf_safe _ _ _ (by simp) (StirUnit.formIf_safe _ _ _ (by simp) (StirUnit.formPass_safe _ h)))

/-! ## What a formation and a stir order do (R106, R109, R110, R112) -/

/-- A pass of the formation does not raise the setpoint (R111). -/
theorem StirUnit.formPass_setpoint_le (u : StirUnit) : u.formPass.1.setpoint ≤ u.setpoint := by
  have h : ∀ (w : StirUnit) n, (w.cutTo n).setpoint ≤ w.setpoint := by
    intro w n; rw [StirUnit.cutTo_setpoint]; exact Nat.min_le_left _ _
  unfold StirUnit.formPass StirUnit.cuts; dsimp only
  repeat' split
  all_goals first | exact h _ _ | exact Nat.le_refl _

/-- A further pass, made or not, does not raise the setpoint (R111). -/
theorem StirUnit.formIf_setpoint_le (u : StirUnit) (c : Bool) (change : StirUnit → StirUnit)
    (hc : (change u).setpoint = u.setpoint) : (u.formIf c change).1.setpoint ≤ u.setpoint := by
  unfold StirUnit.formIf; split
  · exact Nat.le_trans (StirUnit.formPass_setpoint_le _) (Nat.le_of_eq hc)
  · exact Nat.le_refl _

/-- A formation does not raise the setpoint (R111). -/
theorem StirUnit.form_setpoint_le (u : StirUnit) : u.form.1.setpoint ≤ u.setpoint := by
  unfold StirUnit.form; dsimp only
  refine Nat.le_trans (StirUnit.formIf_setpoint_le _ _ _ (by simp)) ?_
  refine Nat.le_trans (StirUnit.formIf_setpoint_le _ _ _ (by simp)) ?_
  exact Nat.le_trans (StirUnit.formIf_setpoint_le _ _ _ (by simp [StirUnit.completeReversal])) (StirUnit.formPass_setpoint_le _)

/-- A unit whose target is the one its stages give, L noted in `limited` where a stage lowered the value. -/
def StirUnit.Formed (r : StirUnit × Bool) : Prop :=
  r.1.target = r.1.formedTarget ∧ (r.1.target < r.1.phaseSpeed → r.2 = true)

/-- A pass of the formation forms the target (R109). -/
theorem StirUnit.formPass_formed (u : StirUnit) : StirUnit.Formed u.formPass := by
  have hc : ∀ w : StirUnit, w.cuts.formedTarget = w.formedTarget ∧ w.cuts.phaseSpeed = w.phaseSpeed ∧ w.cuts.target = w.target := by
    intro w; unfold StirUnit.cuts StirUnit.cutTo
    repeat' split
    all_goals exact ⟨rfl, rfl, rfl⟩
  refine ⟨?_, fun h => ?_⟩
  · show (StirUnit.cuts { u with target := u.formedTarget }).target = (StirUnit.cuts _).formedTarget
    rw [(hc _).1, (hc _).2.2]; rfl
  · change (StirUnit.cuts { u with target := u.formedTarget }).target < (StirUnit.cuts { u with target := u.formedTarget }).phaseSpeed at h
    rw [(hc _).2.1, (hc _).2.2] at h
    change u.formedTarget < u.phaseSpeed at h
    show u.limited = true
    unfold StirUnit.limited
    simp only [Bool.or_eq_true, decide_eq_true_eq]
    omega

/-- A further pass, made or not, leaves a formed target formed (R109). -/
theorem StirUnit.formIf_formed (r : StirUnit × Bool) (c : Bool) (change : StirUnit → StirUnit) (h : StirUnit.Formed r) :
    StirUnit.Formed ((r.1.formIf c change).1, r.2 || (r.1.formIf c change).2) := by
  unfold StirUnit.formIf; split
  · have := StirUnit.formPass_formed (change r.1)
    exact ⟨this.1, fun hl => by simp [this.2 hl]⟩
  · exact ⟨h.1, fun hl => by simp [h.2 hl]⟩

/-- A formation forms the target (R109). -/
theorem StirUnit.form_formed (u : StirUnit) : StirUnit.Formed u.form := by
  have h1 := StirUnit.formIf_formed _ u.formPass.1.reversalDone StirUnit.completeReversal (StirUnit.formPass_formed u)
  have h2 := fun c => StirUnit.formIf_formed _ c StirUnit.release h1
  exact StirUnit.formIf_formed _ _ StirUnit.engage (h2 _)

/-- A formation keeps the direction in effect (R112). -/
theorem StirUnit.form_directionInEffect (u : StirUnit) : u.form.1.directionInEffect = u.directionInEffect :=
  u.form_keeps StirUnit.directionInEffect (by intro v; simp [StirUnit.directionInEffect]) (by
    intro v; simp [StirUnit.directionInEffect, StirUnit.completeReversal]) (by intro v; simp [StirUnit.directionInEffect]) (by intro v; simp [StirUnit.directionInEffect])

/-- Without a reversal that its cuts complete, a formation keeps the directions (R112). -/
theorem StirUnit.form_directions (u : StirUnit) (h : u.formPass.1.reversalDone = false) :
    u.form.1.drive = u.drive ∧ u.form.1.pendingDir = u.pendingDir ∧ u.form.1.reversalHold = u.reversalHold := by
  have h1 : (u.formPass.1.formIf u.formPass.1.reversalDone StirUnit.completeReversal).1 = u.formPass.1 := by
    rw [h]; rfl
  unfold StirUnit.form
  simp only [h1]
  have key : ∀ {α : Type} (f : StirUnit → α), (∀ v : StirUnit, f v.formPass.1 = f v) → (∀ v : StirUnit, f v.release = f v) →
      (∀ v : StirUnit, f v.engage = f v) → ∀ c2 c3 : StirUnit → Bool, 
      f ((u.formPass.1.formIf (c2 u.formPass.1) StirUnit.release).1.formIf
        (c3 (u.formPass.1.formIf (c2 u.formPass.1) StirUnit.release).1) StirUnit.engage).1 = f u := by
    intro α f hp hr he c2 c3
    rw [StirUnit.formIf_keeps _ _ _ f hp (he _), StirUnit.formIf_keeps _ _ _ f hp (hr _), hp]
  exact ⟨key StirUnit.drive (by simp) (by simp) (by simp) _ _, key StirUnit.pendingDir (by simp) (by simp) (by simp) _ _,
    key StirUnit.reversalHold (by simp) (by simp) (by simp) _ _⟩

/-- A formation changes directions, target, setpoint, stall timer and lock only. -/
theorem StirUnit.form_rest (u : StirUnit) :
    { u.form.1 with
      drive := u.drive, pendingDir := u.pendingDir, reversalHold := u.reversalHold, target := u.target
      setpoint := u.setpoint, stall := u.stall, lock := u.lock, lockTimer := u.lockTimer } = u := by
  cases u; simp

/-- Everything a SPEED_ZERO order does (R106). -/
theorem StirUnit.handZero_rests (u : StirUnit) : u.Rests u.handZero.1 := by
  unfold StirUnit.handZero
  have hf := StirUnit.form_formed { u with order := .speedZero }
  have hr := StirUnit.form_rest { u with order := .speedZero }
  have hd := StirUnit.form_directionInEffect { u with order := .speedZero }
  have hs := StirUnit.form_setpoint_le { u with order := .speedZero }
  have ho := StirUnit.form_order { u with order := .speedZero }
  generalize StirUnit.form { u with order := .speedZero } = r at *
  refine ⟨ho, ?_, hs, hd, ?_⟩
  · rw [hf.1]
    have : r.1.phaseSpeed = 0 := by unfold StirUnit.phaseSpeed; rw [ho]
    have hfr : r.1.freeSpeed = 0 := by unfold StirUnit.freeSpeed; rw [this]; repeat' split <;> simp
    have hl : r.1.lockSpeed = 0 := by unfold StirUnit.lockSpeed; rw [hfr]; split <;> simp
    unfold StirUnit.formedTarget StirUnit.lockLimited; rw [hl]; split <;> simp
  · exact congrArg (fun k : StirUnit => ({ k with order := u.order } : StirUnit)) hr

/-- The direction of a stir order is the direction in effect (R112). -/
theorem StirUnit.takeDirection_directionInEffect (u : StirUnit) (d : Direction) :
    (u.takeDirection d).directionInEffect = d := by
  unfold StirUnit.takeDirection
  split
  · simp [*]
  · split
    · split <;> simp [StirUnit.directionInEffect, *]
    · split <;> simp [StirUnit.directionInEffect, *]

/-- The target the stages give, from the phase speed (R109). -/
theorem StirUnit.formedTarget_eq (u : StirUnit) :
    u.formedTarget =
      (let free := if u.lid.level = .opened then 0 else if 600 < u.hot.getD 601 then min u.phaseSpeed 3000 else u.phaseSpeed
       let lock := min free (u.ceiling.getD free)
       if u.lock = .confirmed then lock else min lock 1200) := by
  have hhot : u.isHot = decide (600 < u.hot.getD 601) := by
    unfold StirUnit.isHot; cases u.hot <;> simp
  have hlock : u.lockSpeed = min u.freeSpeed (u.ceiling.getD u.freeSpeed) := by
    unfold StirUnit.lockSpeed; cases u.ceiling <;> simp
  unfold StirUnit.formedTarget StirUnit.lockLimited
  rw [hlock]
  simp only [StirUnit.freeSpeed, hhot, decide_eq_true_eq]

/-- Everything a STIR order does (R106, R109, R110, R112). -/
theorem StirUnit.handStir_takes (u : StirUnit) (isNew : Bool) (p : StirPart) :
    u.TakesStir isNew p (u.handStir isNew p).1 (u.handStir isNew p).2 := by
  unfold StirUnit.handStir
  dsimp only
  generalize hi : p.interval.map (fun t => (5 * min t.1 60, 5 * min t.2 60)) = interval
  have his : interval.isSome = p.interval.isSome := by rw [← hi]; simp
  generalize hu1 : ({ u with
    order := .stir (min p.speed 9600) p.dir interval
    phaseOn := if (isNew && interval.isSome) = true then true else u.phaseOn
    phaseTimer := if (isNew && interval.isSome) = true then 0 else u.phaseTimer
    phaseMs := if (isNew && interval.isSome) = true then 0 else u.phaseMs } : StirUnit) = u1
  have hk : u1.takeDirection p.dir = { u1 with
      drive := (u1.takeDirection p.dir).drive, pendingDir := (u1.takeDirection p.dir).pendingDir
      reversalHold := (u1.takeDirection p.dir).reversalHold } := by
    unfold StirUnit.takeDirection; repeat' split
    all_goals rfl
  have hde := StirUnit.takeDirection_directionInEffect u1 p.dir
  generalize hv : u1.takeDirection p.dir = v at hk hde
  have hf := StirUnit.form_formed v
  have hr := StirUnit.form_rest v
  have hd := StirUnit.form_directionInEffect v
  have hs := StirUnit.form_setpoint_le v
  have hdir := StirUnit.form_directions v
  have hd1 : u1.directionInEffect = u.directionInEffect := by rw [← hu1]; rfl
  have hvs : v.setpoint = u.setpoint ∧ v.standstill = u.standstill ∧ v.lid = u.lid ∧ v.hot = u.hot ∧ v.ceiling = u.ceiling ∧
    v.mainsHold = u.mainsHold := by rw [hk, ← hu1]; exact ⟨rfl, rfl, rfl, rfl, rfl, rfl⟩
  have hvp : v.phaseOn = (if (isNew && interval.isSome) = true then true else u.phaseOn) ∧
      v.phaseTimer = (if (isNew && interval.isSome) = true then 0 else u.phaseTimer) ∧
      v.order = .stir (min p.speed 9600) p.dir interval := by rw [hk, ← hu1]; exact ⟨rfl, rfl, rfl⟩
  have g1 := v.form_order
  have g2 := v.form_phaseOn
  have g3 := v.form_phaseTimer
  have g4 := v.form_lid
  have g5 := v.form_hot
  have g6 := v.form_ceiling
  have g7 := v.form_mainsHold
  have nodone : v.pendingDir = none ∨ v.standstill ≠ .reached → v.formPass.1.reversalDone = false := by
    intro h
    have e1 : v.formPass.1.pendingDir = v.pendingDir := by simp
    have e2 : v.formPass.1.standstill = v.standstill := by simp
    unfold StirUnit.reversalDone
    rw [e1, e2]
    rcases h with h | h <;> simp [h]
  constructor
  · rw [g1, hvp.2.2, hi]
  · rw [g2, g3, hvp.1, hvp.2.1, his]
    cases isNew <;> cases p.interval <;> simp
  · rw [hd, hde]
  · intro h1 h2
    have hv' : v = u1 := by rw [← hv]; unfold StirUnit.takeDirection; rw [hd1, if_pos h1]
    have hp : v.pendingDir = none := by rw [hv', ← hu1]; exact h2
    have := hdir (nodone (Or.inl hp))
    rw [this.1, this.2.1, this.2.2, hv', ← hu1]
    exact ⟨rfl, h2, rfl⟩
  · intro h1 h2 h3 h4
    have hv' : v = { u1 with drive := p.dir } := by
      rw [← hv]; unfold StirUnit.takeDirection; rw [hd1, if_neg h1]
      have : u1.pendingDir = none ∧ u1.standstill = .reached ∧ u1.setpoint = 0 := by rw [← hu1]; exact ⟨h2, h3, h4⟩
      simp [this]
    have hp : v.pendingDir = none := by rw [hv', ← hu1]; exact h2
    have := hdir (nodone (Or.inl hp))
    rw [this.1, this.2.1, this.2.2, hv', ← hu1]
    exact ⟨rfl, h2, rfl⟩
  · intro h1 h2 h3
    have hv' : v = { u1 with pendingDir := some p.dir, reversalHold := true } := by
      rw [← hv]; unfold StirUnit.takeDirection; rw [hd1, if_neg h1]
      have h2' : u1.pendingDir = none := by rw [← hu1]; exact h2
      have h3' : u1.standstill ≠ .reached := by rw [← hu1]; exact h3
      simp [h2', h3']
    have := hdir (nodone (Or.inr (by rw [hvs.2.1]; exact h3)))
    rw [this.1, this.2.1, this.2.2, hv', ← hu1]
    exact ⟨rfl, rfl, rfl⟩
  · intro d h1 h2 h3
    have hv' : v = { u1 with pendingDir := none, reversalHold := false } := by
      rw [← hv]; unfold StirUnit.takeDirection
      have h1' : u1.pendingDir = some d := by rw [← hu1]; exact h1
      have h3' : p.dir = u1.drive := by rw [← hu1]; exact h3
      rw [hd1, if_neg (by unfold StirUnit.directionInEffect; rw [h1]; exact h2)]
      simp only [h1']; rw [if_pos h3']
    have := hdir (nodone (Or.inl (by rw [hv'])))
    rw [this.1, this.2.1, this.2.2, hv', ← hu1]
    exact ⟨rfl, rfl, rfl⟩
  · have hph : v.form.1.phaseSpeed =
        if v.form.1.reversalHold = true ∨ u.mainsHold = true ∨ (p.interval.isSome ∧ v.form.1.phaseOn = false) then 0
        else min p.speed 9600 := by
      rw [← his]; unfold StirUnit.phaseSpeed; rw [g1, hvp.2.2]; simp only [g7, hvs.2.2.2.2.2]
    intro phase free lock
    have hp : v.form.1.phaseSpeed = phase := hph
    clear_value phase
    refine ⟨?_, fun hlt => ?_⟩
    · rw [hf.1, StirUnit.formedTarget_eq, hp, g4, g5, g6, hvs.2.2.1, hvs.2.2.2.1, hvs.2.2.2.2.1]
    · have := hf.2 (lt_of_lt_of_eq hlt hp.symm)
      simp [this]
  · rw [← hvs.1]; exact hs
  · rintro (h | ⟨on, off, h, h'⟩)
    · simp [h]
    · rcases h' with h' | h' <;> simp [h, h']
  · have := congrArg (fun k : StirUnit => ({ k with
      order := u.order, phaseOn := u.phaseOn, phaseTimer := u.phaseTimer, phaseMs := u.phaseMs, drive := u.drive
      pendingDir := u.pendingDir, reversalHold := u.reversalHold, target := u.target, setpoint := u.setpoint, stall := u.stall
      lock := u.lock, lockTimer := u.lockTimer } : StirUnit)) hr
    exact this.trans (by rw [hk, ← hu1])

end Sys2Proof.Machine
end

