-- ==== Sys2Proof/Laws/Units.lean ====
section
/-! SUPPORT. What the small operations of the weighing channel, the heating unit and the stirring unit do, each said once. -/

namespace Sys2Proof.Machine

open Sys2Proof

/-! ## Weighing -/

theorem foldl_max_le_iff (l : List Int) (a k : Int) : l.foldl max a ≤ k ↔ a ≤ k ∧ ∀ x ∈ l, x ≤ k := by
  induction l generalizing a with
  | nil => simp
  | cons y l ih => simp [ih, and_assoc]

theorem le_foldl_min_iff (l : List Int) (a k : Int) : k ≤ l.foldl min a ↔ k ≤ a ∧ ∀ x ∈ l, k ≤ x := by
  induction l generalizing a with
  | nil => simp
  | cons y l ih => simp [ih, and_assoc]

/-- S is judged true exactly with 16 values, no two of them further apart than the band (R66). -/
theorem judgeStable_iff (w : List Int) (band : Nat) :
    judgeStable w band = true ↔ w.length = 16 ∧ ∀ y ∈ w, ∀ z ∈ w, y - z ≤ band := by
  cases w with
  | nil => simp [judgeStable]
  | cons a l =>
    have hmax : l.foldl max a - l.foldl min a ≤ band ↔ l.foldl max a ≤ band + l.foldl min a := by omega
    have hmin : ∀ x : Int, x ≤ band + l.foldl min a ↔ x - band ≤ l.foldl min a := by intro x; omega
    have hswap : ∀ x y : Int, x - band ≤ y ↔ x - y ≤ band := by intro x y; omega
    simp only [judgeStable, Bool.and_eq_true, decide_eq_true_eq, and_congr_right_iff]
    intro _
    rw [hmax, foldl_max_le_iff]
    simp only [hmin, le_foldl_min_iff]
    simp only [hswap, List.mem_cons, forall_eq_or_imp]

/-- The window never holds more than 16 values (R66). -/
theorem pushWindow_length_le (w : List Int) (m : Int) (h : w.length ≤ 16) : (pushWindow w m).length ≤ 16 := by
  unfold pushWindow; split <;> simp <;> omega

@[simp] theorem Channel.formAdded_added (c : Channel) : c.formAdded.added = c.mass - c.tarePoint := rfl

@[simp] theorem Channel.formAdded_mass (c : Channel) : c.formAdded.mass = c.mass := rfl

@[simp] theorem Channel.formAdded_tarePoint (c : Channel) : c.formAdded.tarePoint = c.tarePoint := rfl

@[simp] theorem Channel.formAdded_part (c : Channel) : c.formAdded.part = c.part := rfl

@[simp] theorem Channel.formAdded_stable (c : Channel) : c.formAdded.stable = c.stable := rfl

/-- A TARE leaves the added mass as the last conversion formed it (R70, R77). -/
@[simp] theorem Channel.takeTare_added (c : Channel) : c.takeTare.added = c.added := rfl

@[simp] theorem Channel.takeTare_tarePoint (c : Channel) : c.takeTare.tarePoint = c.mass := rfl

/-- A decision changes nothing of the channel but what it reports (R74). -/
theorem Channel.makeDecision_keeps (c : Channel) :
    c.makeDecision.1 = { c with decision := c.makeDecision.1.decision, mReported := c.makeDecision.1.mReported } := by
  unfold Channel.makeDecision
  split
  · split
    · dsimp only
      split
      · split <;> rfl
      · split
        · split <;> rfl
        · split <;> rfl
    · rfl
  · rfl

/-! ## Heating -/

@[simp] theorem HeatUnit.post_grantStage (h : HeatUnit) : h.post.grantStage = h.grantStage := by
  unfold HeatUnit.post; split
  · split <;> rfl
  · rfl

@[simp] theorem HeatUnit.setRelay_grantStage (h : HeatUnit) (e : Element) (r : Relay) :
    (h.setRelay e r).grantStage = h.grantStage := by cases e <;> rfl

@[simp] theorem HeatUnit.beginSettle_grantStage (h : HeatUnit) (e : Element) :
    (h.beginSettle e).grantStage = h.grantStage := by cases e <;> rfl

@[simp] theorem HeatUnit.takePendingSwitch_grantStage (h : HeatUnit) : h.takePendingSwitch.grantStage = h.grantStage := by
  unfold HeatUnit.takePendingSwitch
  split
  · split
    · rfl
    · rw [HeatUnit.beginSettle_grantStage]
  · rfl

/-- A stage that becomes active has no grant in the window in progress (R134). -/
theorem HeatUnit.settleExpiry_grantStage (h : HeatUnit) (v : CalValues) (st : Settle) (hs : h.settle = some st) :
    (h.settleExpiry v).grantStage = none := by
  simp only [HeatUnit.settleExpiry, hs, HeatUnit.takePendingSwitch_grantStage, HeatUnit.post_grantStage]
  split
  · rfl
  · exact HeatUnit.setRelay_grantStage _ _ _

/-- Without a grant for some stage no half-cycle is fired (R101). -/
theorem HeatUnit.fire_without_grant (h : HeatUnit) (p : Nat) (hg : h.grantStage = none) : (h.fire p).firing = none := by
  simp only [HeatUnit.fire, hg]
  split
  · rw [if_neg]; simp
  · rfl

/-! ## What a STEP order does (R87 to R90, R94, R97 to R99) -/

/-- Clamping is the greater of the lower end and the lesser of the upper end and the value. -/
theorem clampInt_eq (lo hi v : Int) (h : lo ≤ hi) : clampInt lo hi v = max lo (min hi v) := by
  unfold clampInt; split
  · omega
  · split <;> omega

/-- A no-heat order leaves the unit at rest (R87). -/
theorem HeatUnit.handNoHeat_rests (h : HeatUnit) : h.Rests (h.handNoHeat false) := rfl

/-- The STEP column of the table of R94. -/
theorem selectStage_step (m : StageMode) : selectStage m false = m.stepStage := by cases m <;> rfl

/-- A switch request changes the relays, the settle, the pending switch and the AUTO counts only (R95, R98, R99). -/
theorem HeatUnit.requestSwitch_rest (h : HeatUnit) (e : Element) :
    { h.requestSwitch e with
      lowCount := h.lowCount, highCount := h.highCount, relayMain := h.relayMain, relayKeep := h.relayKeep
      settle := h.settle, pendingSwitch := h.pendingSwitch } = h := by
  unfold HeatUnit.requestSwitch
  dsimp only
  split
  · rfl
  · split
    · rfl
    · cases e <;> rfl
  · rfl

/-- The call for a stage changes the relays, the settle, the pending switch and the AUTO counts only (R87). -/
theorem HeatUnit.callStage_rest (h : HeatUnit) (mode : StageMode) :
    { h.callStage mode with
      lowCount := h.lowCount, highCount := h.highCount, relayMain := h.relayMain, relayKeep := h.relayKeep
      settle := h.settle, pendingSwitch := h.pendingSwitch } = h := by
  have hq := h.requestSwitch_rest (selectStage mode h.holding)
  unfold HeatUnit.callStage
  dsimp only
  split
  · rfl
  · split
    · cases selectStage mode h.holding <;> rfl
    · repeat' split
      all_goals first | exact hq | rfl

/-- The stage a unit without a HOLD order calls for (R85, R87, R94, R97, R98). -/
theorem HeatUnit.callStage_step (h : HeatUnit) (mode : StageMode) (hh : h.holding = false) :
    h.callStage mode =
      if h.latch then h
      else if h.relayMain = .opened ∧ h.relayKeep = .opened then h.beginSettle mode.stepStage
      else match h.active with
        | none => h.requestSwitch mode.stepStage
        | some a => if mode = .auto ∨ a = mode.stepStage then h else h.requestSwitch mode.stepStage := by
  simp only [HeatUnit.callStage, hh, selectStage_step]
  repeat' split
  all_goals simp_all

/-- AUTO counts that are 0 stay 0 when a stage is called for (R95). -/
theorem HeatUnit.callStage_counts (h : HeatUnit) (mode : StageMode) (hl : h.lowCount = 0) (hh : h.highCount = 0) (g : HeatUnit)
    (hg : h.callStage mode = g) : g.lowCount = 0 ∧ g.highCount = 0 := by
  have hb : ∀ (k : HeatUnit) (e : Element), (k.beginSettle e).lowCount = k.lowCount ∧ (k.beginSettle e).highCount = k.highCount :=
    fun k e => by cases e <;> exact ⟨rfl, rfl⟩
  have hq : ∀ e, (h.requestSwitch e).lowCount = 0 ∧ (h.requestSwitch e).highCount = 0 := by
    intro e; unfold HeatUnit.requestSwitch; dsimp only
    split
    · exact ⟨rfl, rfl⟩
    · split
      · exact ⟨rfl, rfl⟩
      · exact hb _ _
    · exact ⟨rfl, rfl⟩
  subst hg
  unfold HeatUnit.callStage
  dsimp only
  repeat' split
  all_goals first | exact ⟨hl, hh⟩ | exact hq _ | exact ⟨(hb _ _).1.trans hl, (hb _ _).2.trans hh⟩

/-- Everything a STEP order does (R87 to R90, R94, R97). -/
theorem HeatUnit.handStep_takes (h : HeatUnit) (mode : StageMode) (isNew : Bool) (p : HeatPart) (offset : Option Int) :
    h.TakesStep mode isNew p offset (h.handStep mode isNew p offset).1 := by
  have ht : targetInForce p.target offset = max 300 (min 1800 (p.target + offset.getD 0)) :=
    clampInt_eq _ _ _ (by decide)
  generalize hf : ({ h with
      order := .step p.target p.ramp offset
      target := some (targetInForce p.target offset)
      effective := some (h.effectiveAtHanding isNew (targetInForce p.target offset) (p.ramp.map (fun r => min r 50)))
      rampLimit := p.ramp.map (fun r => min r 50)
      rampRemainder := h.remainderAtHanding isNew (p.ramp.map (fun r => min r 50))
      tDirection := if isNew then tDirectionFor (targetInForce p.target offset) h.temp else h.tDirection
      tReported := if isNew then false else h.tReported
      lowCount := if isNew then 0 else h.lowCount
      highCount := if isNew then 0 else h.highCount } : HeatUnit) = f
  have hg : (h.handStep mode isNew p offset).1 = f.callStage mode := by rw [← hf]; rfl
  rw [hg]
  have hr := f.callStage_rest mode
  have hc := f.callStage_step mode (by rw [← hf]; rfl)
  generalize hcs : f.callStage mode = g at hr hc
  have e1 := congrArg HeatUnit.order hr
  have e2 := congrArg HeatUnit.target hr
  have e3 := congrArg HeatUnit.effective hr
  have e4 := congrArg HeatUnit.rampLimit hr
  have e5 := congrArg HeatUnit.rampRemainder hr
  have e6 := congrArg HeatUnit.tDirection hr
  have e7 := congrArg HeatUnit.tReported hr
  dsimp only at e1 e2 e3 e4 e5 e6 e7
  have l1 : f.latch = h.latch := by rw [← hf]
  have l2 : f.relayMain = h.relayMain := by rw [← hf]
  have l3 : f.relayKeep = h.relayKeep := by rw [← hf]
  have l4 : f.settle = h.settle := by rw [← hf]
  have l5 : f.active = h.active := by rw [← hf]
  have l6 : f.pendingSwitch = h.pendingSwitch := by rw [← hf]
  have l7 : f.lowCount = if isNew then 0 else h.lowCount := by rw [← hf]
  have l8 : f.highCount = if isNew then 0 else h.highCount := by rw [← hf]
  constructor
  · rw [e1, ← hf]
  · rw [e2, ← hf, ht]
  · rw [e4, ← hf]
  · intro hp; rw [e3, e2, ← hf]; simp [hp, HeatUnit.effectiveAtHanding]
  · intro hp hn e he; rw [e3, ← hf]
    obtain ⟨r, hr⟩ := Option.isSome_iff_exists.1 hp
    simp only [hr, he, HeatUnit.effectiveAtHanding, Option.map_some]
    rw [if_neg]
    intro hc; simp only [Bool.and_eq_true, Bool.not_eq_true'] at hc; simp [hn hc.1] at hc
  · intro hp hn; rw [e3, ← hf]
    obtain ⟨r, hr⟩ := Option.isSome_iff_exists.1 hp
    have hm : h.measuredOrigin = match h.temp with
      | some t => max 300 (min 1800 t)
      | none => 300 := by
      unfold HeatUnit.measuredOrigin
      cases h.temp with
      | none => rfl
      | some t => exact clampInt_eq _ _ _ (by decide)
    refine Eq.trans ?_ (congrArg some hm)
    simp only [hr, HeatUnit.effectiveAtHanding, Option.map_some]
    rcases hn with hn | ⟨hn, ho⟩
    · rw [hn]
    · cases h.effective <;> simp [hn, ho]
  · rw [e5, ← hf]; simp [HeatUnit.remainderAtHanding, or_assoc]
  · intro hn
    refine ⟨?_, ?_, ?_, ?_⟩
    · rw [e6, ← hf, ht]; simp only [hn, if_true, tDirectionFor]
      cases h.temp with
      | none => simp
      | some t => simp only [Option.some.injEq, exists_eq_left']; split <;> simp [*]
    · rw [e7, ← hf]; simp [hn]
    · exact (HeatUnit.callStage_counts f mode (by rw [l7]; simp [hn]) (by rw [l8]; simp [hn]) g hcs).1
    · exact (HeatUnit.callStage_counts f mode (by rw [l7]; simp [hn]) (by rw [l8]; simp [hn]) g hcs).2
  · intro hn; rw [e6, e7, ← hf]; simp [hn]
  · intro hl; rw [hc, l1, hl, if_pos rfl]; exact ⟨l2, l3, l4, l6⟩
  · intro hl hm hk
    rw [hc, l1, hl, l2, l3, hm, hk]
    simp only [Bool.false_eq_true, if_false, and_self, if_true]
    refine ⟨rfl, ?_, ?_⟩
    · cases mode <;> exact l6
    · intro e; cases mode <;> cases e <;> simp [HeatUnit.beginSettle, HeatUnit.setRelay, StageMode.stepStage, HeatUnit.relay, l2, l3, hm, hk]
  · intro hl ho a ha hs
    rw [hc, l1, hl, if_neg (by simp), if_neg (by rw [l2, l3]; rcases ho with ho | ho <;> simp [ho]), l5, ha]
    simp only [hs, if_true]
    exact ⟨⟨l2, l3, l4, l6⟩, fun hn => by rw [l7, l8]; simp [hn]⟩
  · intro hl ho hst a ha hm hs
    rw [hc, l1, hl, if_neg (by simp), if_neg (by rw [l2, l3]; rcases ho with ho | ho <;> simp [ho]), l5, ha]
    simp only [hm, hs, or_self, if_false, HeatUnit.requestSwitch, l4, hst, l5, ha]
    rw [if_neg (Ne.symm hs)]
    refine ⟨rfl, ?_, ?_⟩
    · cases mode <;> exact l6
    · intro e; cases mode <;> cases e <;> simp [HeatUnit.beginSettle, HeatUnit.setRelay, StageMode.stepStage, HeatUnit.relay, l2, l3]
  · intro hl ho ha st hst
    have hq : f.requestSwitch mode.stepStage =
      { f with lowCount := 0, highCount := 0, pendingSwitch := if mode.stepStage = st.toward then none else some mode.stepStage } := by
      simp only [HeatUnit.requestSwitch, l4, hst]
    have hg' : g = f.requestSwitch mode.stepStage := by
      rw [hc, l1, hl, if_neg (by simp), if_neg (by rw [l2, l3]; rcases ho with ho | ho <;> simp [ho]), l5]
      rcases ha with ha | ⟨a, ha, hm, hs⟩
      · rw [ha]
      · simp only [ha, hm, hs, or_self, if_false]
    rw [hg', hq]
    exact ⟨l2, l3, l4, rfl⟩
  · have := congrArg (fun k : HeatUnit => ({ k with
      order := h.order, target := h.target, effective := h.effective, rampLimit := h.rampLimit
      rampRemainder := h.rampRemainder, tDirection := h.tDirection, tReported := h.tReported, lowCount := h.lowCount
      highCount := h.highCount, relayMain := h.relayMain, relayKeep := h.relayKeep, settle := h.settle
      pendingSwitch := h.pendingSwitch } : HeatUnit)) hr
    exact this.trans (by rw [← hf])

/-! ## Stirring -/

/-- The PWM output is off exactly with the setpoint at 0 (R111). -/
theorem StirUnit.pwm_off_iff (u : StirUnit) : u.pwm = .off ↔ u.setpoint = 0 := by
  unfold StirUnit.pwm; split <;> simp [*]

/-- With the setpoint above 0 the PWM output drives toward it in the drive direction (R111). -/
theorem StirUnit.pwm_toward (u : StirUnit) (h : 0 < u.setpoint) : u.pwm = .toward u.setpoint u.drive := by
  unfold StirUnit.pwm; rw [if_neg (by omega)]

end Sys2Proof.Machine
end

