-- ==== Sys2Proof/Laws/Run.lean ====
section
/-! SUPPORT. What the operations of a step engine leave alone: everything outside its own bowl, the notices and the user sets.
What its handings and a window start leave in the units of a bowl. -/

namespace Sys2Proof.Machine

open Sys2Proof

/-! ## The frame of a bowl's operation -/

/-- `t` differs from `s` in bowl `b`, its notices and its membership of user sets only, and the ports and the queue are as they
were. -/
structure State.Within (s t : State) (b : BowlId) : Prop extends State.OnlyBowl s t b where
  ports : t.ports = s.ports
  pending : t.pending = s.pending

/-- Every state differs from itself in nothing. -/
theorem State.OnlyBowl.refl (s : State) (b : BowlId) : s.OnlyBowl s b :=
  ⟨rfl, rfl, rfl, fun _ => rfl, fun _ => rfl, rfl, rfl, rfl, rfl, rfl, fun _ => rfl, fun _ _ h => h, fun _ _ _ => rfl⟩

/-- Two changes of one bowl in a row are a change of it. -/
theorem State.OnlyBowl.trans {s t u : State} {b : BowlId} (h : s.OnlyBowl t b) (k : t.OnlyBowl u b) : s.OnlyBowl u b where
  other := k.other.trans h.other
  mem := k.mem.trans h.mem
  free := k.free.trans h.free
  entries n := (k.entries n).trans (h.entries n)
  users n := (k.users n).trans (h.users n)
  image := k.image.trans h.image
  arbiter := k.arbiter.trans h.arbiter
  inReset := k.inReset.trans h.inReset
  resets := k.resets.trans h.resets
  draws := k.draws.trans h.draws
  settings p := by
    rw [← h.settings p, ← k.settings p]
  raised p c hc := k.raised p c (h.raised p c hc)
  causes p c hc := (k.causes p c hc).trans (h.causes p c hc)

/-- Every state is within itself. -/
theorem State.Within.refl (s : State) (b : BowlId) : s.Within s b := ⟨State.OnlyBowl.refl s b, rfl, rfl⟩

/-- Two operations within a bowl in a row are within it. -/
theorem State.Within.trans {s t u : State} {b : BowlId} (h : s.Within t b) (k : t.Within u b) : s.Within u b :=
  ⟨h.toOnlyBowl.trans k.toOnlyBowl, k.ports.trans h.ports, k.pending.trans h.pending⟩

/-- A change of the blocks of one bowl alone. -/
theorem State.within_of_eq {s t : State} {b : BowlId} (ho : t.bowl (otherBowl b) = s.bowl (otherBowl b))
    (hs : t.store = s.store) (hi : t.image = s.image) (ha : t.arbiter = s.arbiter) (hn : t.notices = s.notices)
    (hr : t.inReset = s.inReset) (hc : t.resets = s.resets) (hd : t.draws = s.draws) (hp : t.ports = s.ports)
    (hq : t.pending = s.pending) : s.Within t b := by
  refine ⟨⟨ho, by rw [hs], by rw [hs], fun n => by rw [hs], fun n => by rw [hs], hi, ha, hr, hc, hd, fun p => by rw [hn],
    fun p c h => by rw [hn]; exact h, fun p c _ => by rw [hn]⟩, hp, hq⟩

theorem State.within_setRun (s : State) (b : BowlId) (r : RunContext) : s.Within (s.setRun b r) b := by
  apply State.within_of_eq <;> simp

theorem State.within_setWeigh (s : State) (b : BowlId) (c : Channel) : s.Within (s.setWeigh b c) b := by
  apply State.within_of_eq <;> simp

theorem State.within_setHeat (s : State) (b : BowlId) (h : HeatUnit) : s.Within (s.setHeat b h) b := by
  apply State.within_of_eq <;> simp

theorem State.within_setBowl (s : State) (b : BowlId) (x : Bowl) : s.Within (s.setBowl b x) b := by
  apply State.within_of_eq <;> simp

theorem State.within_setFlags (s : State) (b : BowlId) (w : FlagWord) : s.Within (s.setFlags b w) b := by
  apply State.within_of_eq <;> simp

theorem State.within_noteClamp (s : State) (b : BowlId) (c : Bool) : s.Within (s.noteClamp b c) b := by
  apply State.within_of_eq <;> simp

theorem State.within_putStir (s : State) (b : BowlId) (r : StirUnit × Bool) : s.Within (s.putStir b r) b := by
  apply State.within_of_eq <;> simp

theorem State.within_putHeat (s : State) (b : BowlId) (r : HeatUnit × Bool) : s.Within (s.putHeat b r) b := by
  apply State.within_of_eq <;> simp

/-- A raising of one of the bowl's own causes. -/
theorem State.within_raise (s : State) (b : BowlId) (k : BowlCause) : s.Within (s.raise (.ofBowl b k)) b := by
  refine ⟨⟨by simp, by simp, by simp, fun n => by simp, fun n => by simp, by simp, by simp, by simp, by simp, by simp,
    fun p => ?_, fun p c h => s.raise_flag_mono _ p _ h, fun p c h => ?_⟩, by simp, by simp⟩
  · cases p <;> rfl
  · have hc := c.number_lt
    have hne : c.number ≠ (Cause.ofBowl b k).number := fun he => h k (Cause.number_injective he)
    rw [State.raise_flags]
    simp [Cause.getLsbD_mask _ _ hc, hne]

/-! ## Handing orders -/

/-- The bowl after no heat and speed 0 are handed (R27). -/
@[simp] theorem State.bowl_giveRest (s : State) (b : BowlId) (e : Bool) :
    (s.giveRest b e).bowl b =
      { s.bowl b with
        heat := (s.bowl b).heat.handNoHeat e
        stir := (s.bowl b).stir.handZero.1
        run := { (s.bowl b).run with
          flags := { (s.bowl b).run.flags with l := (s.bowl b).run.flags.l || (s.bowl b).stir.handZero.2 } } } := by
  simp [State.giveRest]

/-- The bowl after its outputs are forced to 0 (R27). -/
@[simp] theorem State.bowl_forceOff (s : State) (b : BowlId) :
    (s.forceOff b).bowl b =
      { s.bowl b with
        heat := (s.bowl b).heat.forceOff
        stir := (s.bowl b).stir.handForcedOff.1
        run := { (s.bowl b).run with
          flags := { (s.bowl b).run.flags with l := (s.bowl b).run.flags.l || (s.bowl b).stir.handForcedOff.2 } } } := by
  simp [State.forceOff]

theorem State.within_giveRest (s : State) (b : BowlId) (e : Bool) : s.Within (s.giveRest b e) b :=
  (s.within_setHeat b _).trans (State.within_putStir _ b _)

theorem State.within_forceOff (s : State) (b : BowlId) : s.Within (s.forceOff b) b :=
  (s.within_setHeat b _).trans (State.within_putStir _ b _)

theorem State.within_giveStir (s : State) (b : BowlId) (n : Bool) (p : Option StirPart) : s.Within (s.giveStir b n p) b := by
  unfold State.giveStir; split <;> exact State.within_putStir _ _ _

theorem State.within_giveHeat (s : State) (b : BowlId) (n : Bool) (p : Option HeatPart) : s.Within (s.giveHeat b n p) b := by
  unfold State.giveHeat
  cases p with
  | none => exact State.within_setHeat _ _ _
  | some p => exact State.within_putHeat _ _ _

theorem State.within_handParts (s : State) (b : BowlId) : s.Within (s.handParts b) b :=
  (s.within_setRun b _).trans ((State.within_giveHeat _ b _ _).trans (State.within_giveStir _ b _ _))

theorem State.within_armWeigh (s : State) (b : BowlId) (w : Option WeighPart) : s.Within (s.armWeigh b w) b := by
  cases w with
  | none => exact State.within_setWeigh _ _ _
  | some w => exact (State.within_setWeigh _ _ _).trans (State.within_noteClamp _ _ _)

theorem State.within_withdrawWeigh (s : State) (b : BowlId) : s.Within (s.withdrawWeigh b) b := State.within_setWeigh _ _ _

theorem State.within_handHold (s : State) (b : BowlId) (k : HoldBand) (n : Bool) : s.Within (s.handHold b k n) b :=
  (s.within_setHeat b _).trans (State.within_giveStir _ b _ _)

/-! ## Pausing -/

theorem State.within_enterPaused (s : State) (b : BowlId) (back : ResumeState) : s.Within (s.enterPaused b back) b :=
  ((s.within_setRun b _).trans (State.within_giveRest _ b _)).trans (State.within_raise _ b _)

theorem State.within_addPause (s : State) (b : BowlId) (join : PauseSet → PauseSet) : s.Within (s.addPause b join) b := by
  simp only [State.addPause]; split
  · exact (s.within_setRun b _).trans (State.within_enterPaused _ b _)
  · exact (s.within_setRun b _).trans (State.within_enterPaused _ b _)
  · exact s.within_setRun b _
  · exact State.Within.refl s b
  · exact State.Within.refl s b
  · exact State.Within.refl s b

theorem State.within_lidOpened (s : State) (b : BowlId) : s.Within (s.lidOpened b) b := by
  unfold State.lidOpened; split
  · exact s.within_addPause b _
  · exact State.Within.refl s b

theorem State.within_retestLid (s : State) (b : BowlId) : s.Within (s.retestLid b) b := by
  simp only [State.retestLid]; split
  · exact s.within_addPause b _
  · exact State.Within.refl s b

/-! ## Entering and ending steps -/

/-- A bowl's membership of a user set changed. -/
theorem State.within_setUser (s : State) (n : Nat) (b : BowlId) (m : Bool) : s.Within (s.setUser n b m) b := by
  unfold State.setUser
  split
  · rename_i id start length users weighs he
    have hn : n < 8 := by
      by_contra h
      rw [Store.entry_beyond _ _ (by omega)] at he; cases he
    refine ⟨⟨rfl, rfl, rfl, fun k => ?_, fun k => ?_, rfl, rfl, rfl, rfl, rfl, fun _ => rfl, fun _ _ h => h,
      fun _ _ _ => rfl⟩, rfl, rfl⟩
    · simp only [State.setStore, Store.entry_setEntry _ _ _ _ hn]
      split
      · subst_vars; rw [he]; rfl
      · rfl
    · simp only [State.setStore, Store.entry_setEntry _ _ _ _ hn]
      split
      · subst_vars; rw [he]; simp [Entry.usedBy]
      · rfl
  · exact State.Within.refl s b
  · exact State.Within.refl s b

/-- The two ways a step entry goes on after its prompt and STEP notices. -/
theorem State.within_entryEnd (s : State) (b : BowlId) (c : Bool) :
    s.Within
      (if c then (s.setRun b { (s.bowl b).run with state := .paused, resume := some .running }).raise (.ofBowl b .paused)
        else s) b := by
  split
  · exact (s.within_setRun b _).trans (State.within_raise _ b _)
  · exact State.Within.refl s b

/-- A raising made on a condition. -/
theorem State.within_raiseIf (s : State) (b : BowlId) (c : Prop) [Decidable c] (k : BowlCause) :
    s.Within (if c then s.raise (.ofBowl b k) else s) b := by
  split
  · exact s.within_raise b k
  · exact State.Within.refl s b

theorem State.within_enterStep (s : State) (b : BowlId) (f : InForce) (i : Option Nat) : s.Within (s.enterStep b f i) b := by
  simp only [State.enterStep]
  refine State.Within.trans ?_ (State.within_entryEnd _ b _)
  refine State.Within.trans ?_ (State.within_raise _ b _)
  refine State.Within.trans ?_ (State.within_raiseIf _ b _ _)
  refine State.Within.trans ?_ (State.within_armWeigh _ b _)
  split
  · exact ((s.within_setRun b _).trans (State.within_noteClamp _ b _)).trans
      ((State.within_setRun _ b _).trans (State.within_giveRest _ b _))
  · exact ((s.within_setRun b _).trans (State.within_noteClamp _ b _)).trans
      ((State.within_setRun _ b _).trans (State.within_handParts _ b))

theorem State.within_pushLoop (s : State) (b : BowlId) (f : InForce) (t : Nat) : s.Within (s.pushLoop b f t) b := by
  unfold State.pushLoop; split
  · exact (s.within_setRun b _).trans (State.within_noteClamp _ b _)
  · exact State.Within.refl s b

theorem State.within_transferTo (s : State) (b : BowlId) (t : Nat) : s.Within (s.transferTo b t) b := by
  unfold State.transferTo; split
  · exact (s.within_setRun b _).trans ((State.within_enterStep _ b _ _).trans (State.within_pushLoop _ b _ _))
  · exact State.Within.refl s b

theorem State.within_loopBack (s : State) (b : BowlId) (t : Nat) : s.Within (s.loopBack b t) b := by
  unfold State.loopBack; split
  · exact s.within_enterStep b _ _
  · exact State.Within.refl s b

theorem State.within_endRun (s : State) (b : BowlId) : s.Within (s.endRun b) b := by
  have h : s.Within (s.leaveSlot b) b := by
    unfold State.leaveSlot; split
    · exact s.within_setUser _ b _
    · exact State.Within.refl s b
    · exact State.Within.refl s b
  exact h.trans ((State.within_setRun _ b _).trans ((State.within_giveRest _ b _).trans (State.within_withdrawWeigh _ b)))

theorem State.within_finishRun (s : State) (b : BowlId) : s.Within (s.finishRun b) b :=
  (s.within_endRun b).trans (State.within_raise _ b _)

theorem State.within_enterHold (s : State) (b : BowlId) (c : BandChoice) (l : Nat) : s.Within (s.enterHold b c l) b :=
  (s.within_setRun b _).trans ((State.within_noteClamp _ b _).trans (State.within_handHold _ b _ _))

theorem State.within_applyFlow (s : State) (b : BowlId) (st : Step) : s.Within (s.applyFlow b st) b := by
  simp only [State.applyFlow]; split
  · exact s.within_finishRun b
  · split
    · exact s.within_transferTo b _
    · exact s.within_transferTo b _
    · exact s.within_finishRun b
    · exact s.within_enterHold b _ _

theorem State.within_endStep (s : State) (b : BowlId) : s.Within (s.endStep b) b := by
  simp only [State.endStep]; split
  · exact (s.within_setRun b _).trans ((State.within_withdrawWeigh _ b).trans (State.within_loopBack _ b _))
  · exact (s.within_setRun b _).trans ((State.within_withdrawWeigh _ b).trans (State.within_applyFlow _ b _))

theorem State.within_evaluate (s : State) (b : BowlId) : s.Within (s.evaluate b) b := by
  simp only [State.evaluate]; split
  · exact s.within_endStep b
  · exact State.Within.refl s b

theorem State.within_changeFlags (s : State) (b : BowlId) (w : FlagWord) : s.Within (s.changeFlags b w) b := by
  simp only [State.changeFlags]; split
  · exact s.within_setFlags b w
  · exact (s.within_setFlags b w).trans (State.within_evaluate _ b)

/-! ## Faults -/

theorem State.within_closeCalibration (s : State) (b : BowlId) (o : CalOutcome) : s.Within (s.closeCalibration b o) b :=
  (s.within_setBowl b _).trans (State.within_raise _ b _)

/-- A fault report concerns its own bowl and the notices only (R54, R55). -/
theorem State.within_reportFault (s : State) (b : BowlId) (c : FaultCause) (v : Int) : s.Within (s.reportFault b c v) b := by
  simp only [State.reportFault]
  split
  · exact (s.within_setRun b _).trans (State.within_raise _ b _)
  · have h : s.Within (if (s.bowl b).run.state = .calibrating then s.closeCalibration b .aborted else s) b := by
      split
      · exact s.within_closeCalibration b _
      · exact State.Within.refl s b
    exact h.trans ((State.within_setRun _ b _).trans ((State.within_forceOff _ b).trans
      ((State.within_withdrawWeigh _ b).trans (State.within_raise _ b _))))

/-! ## What the handing of a step's parts leaves (R31, R32) -/

/-- The heating unit after a step's heat part, or its absence, is handed, and whether a clamp was made (R32). -/
def Bowl.heatHanded (x : Bowl) (isNew : Bool) (p : Option HeatPart) (offset : Option Int) : HeatUnit × Bool :=
  match p with
  | some p => x.heat.handStep x.cal.values.mode isNew p offset
  | none => (x.heat.handNoHeat false, false)

/-- The stirring unit after a stir part, or its absence, is handed, and whether a clamp or limit was made (R32). -/
def Bowl.stirHanded (x : Bowl) (isNew : Bool) (p : Option StirPart) : StirUnit × Bool :=
  match p with
  | some p => x.stir.handStir isNew p
  | none => x.stir.handZero

/-- The bowl after the parts of the step in force are handed (R32). -/
theorem State.bowl_handParts (s : State) (b : BowlId) :
    (s.handParts b).bowl b =
      (let x := s.bowl b
       let h := x.heatHanded (!x.run.partsHanded) x.run.step.heat x.run.offset
       let u := x.stirHanded (!x.run.partsHanded) (stirToHand x.run.step x.run.speedOverride)
       { x with
        heat := h.1, stir := u.1
        run := { x.run with partsHanded := true, flags := { x.run.flags with l := x.run.flags.l || h.2 || u.2 } } }) := by
  simp only [State.handParts, State.giveHeat, State.giveStir, Bowl.heatHanded, Bowl.stirHanded]
  repeat' split
  all_goals simp_all

/-- What a bowl with both handings in it has taken (R32). -/
theorem Bowl.takesParts (x y : Bowl) (isNew : Bool) (st : Step) (offset : Option Int) (override : Option Nat)
    (hh : y.heat = (x.heatHanded isNew st.heat offset).1)
    (hs : y.stir = (x.stirHanded isNew (stirToHand st override)).1)
    (hlh : (x.heatHanded isNew st.heat offset).2 = true → y.run.flags.l = true)
    (hls : (x.stirHanded isNew (stirToHand st override)).2 = true → y.run.flags.l = true) :
    x.TakesParts y isNew st offset override := by
  refine ⟨fun p hp => ?_, fun hp => ?_, fun p hp hc => hlh ?_, fun p hp => ?_, fun v hp hv => ?_, fun hp hv => ?_⟩
  · rw [hh, hp]; exact HeatUnit.handStep_takes _ _ _ _ _
  · rw [hh, hp]; exact HeatUnit.handNoHeat_rests _
  · simp only [Bowl.heatHanded, hp, HeatUnit.handStep, Bool.or_eq_true, decide_eq_true_eq]
    rcases hc with hc | hc | ⟨r, hr, hc⟩
    · left; simp only [targetInForce, clampInt]; rw [if_pos hc]; omega
    · left; simp only [targetInForce, clampInt]; rw [if_neg (by omega), if_pos hc]; omega
    · right; rw [hr]; simp; omega
  · have : stirToHand st override = some { p with speed := override.getD p.speed } := by
      unfold stirToHand; rw [hp]; cases override <;> rfl
    rw [this] at hs hls
    exact ⟨_, hs ▸ StirUnit.handStir_takes _ _ _, hls⟩
  · have : stirToHand st override = some ⟨v, .forward, none⟩ := by unfold stirToHand; rw [hp, hv]
    rw [this] at hs hls
    exact ⟨_, hs ▸ StirUnit.handStir_takes _ _ _, hls⟩
  · have : stirToHand st override = none := by unfold stirToHand; rw [hp, hv]
    rw [this] at hs
    rw [hs]; exact StirUnit.handZero_rests _

/-- What the handing of a step's parts leaves (R32). -/
theorem State.handParts_takes (s : State) (b : BowlId) :
    (s.bowl b).TakesParts ((s.handParts b).bowl b) (!(s.bowl b).run.partsHanded) (s.bowl b).run.step (s.bowl b).run.offset
      (s.bowl b).run.speedOverride := by
  rw [State.bowl_handParts]
  exact Bowl.takesParts _ _ _ _ _ _ rfl rfl (fun h => by simp [h]) (fun h => by simp [h])

/-- What a later state of the bowl with the same units has taken too. -/
theorem Bowl.TakesParts.of_eq {x y z : Bowl} {isNew : Bool} {st : Step} {offset : Option Int} {override : Option Nat}
    (h : x.TakesParts y isNew st offset override) (hh : z.heat = y.heat) (hs : z.stir = y.stir)
    (hl : y.run.flags.l = true → z.run.flags.l = true) : x.TakesParts z isNew st offset override :=
  ⟨fun p hp => hh ▸ h.heat p hp, fun hp => hh ▸ h.noHeat hp, fun p hp hc => hl (h.heatClamps p hp hc),
    fun p hp => by obtain ⟨l, a, c⟩ := h.stir p hp; exact ⟨l, hs ▸ a, fun e => hl (c e)⟩,
    fun v hp hv => by obtain ⟨l, a, c⟩ := h.overrideAlone v hp hv; exact ⟨l, hs ▸ a, fun e => hl (c e)⟩,
    fun hp hv => hs ▸ h.noStir hp hv⟩

/-- The bowl after the arming with a step's weigh part, or its withdrawal (R71, R73). -/
theorem State.bowl_armWeigh (s : State) (b : BowlId) (w : Option WeighPart) :
    (s.armWeigh b w).bowl b =
      match w with
      | some w =>
        { s.bowl b with
          weigh := ((s.bowl b).weigh.arm w).1
          run :=
            { (s.bowl b).run with
              flags := { (s.bowl b).run.flags with l := (s.bowl b).run.flags.l || ((s.bowl b).weigh.arm w).2 } } }
      | none => { s.bowl b with weigh := (s.bowl b).weigh.withdraw } := by
  unfold State.armWeigh; cases w <;> simp

/-- What the entry of a step leaves of the units of its bowl (R31, R32). -/
theorem State.enterStep_takes (s : State) (b : BowlId) (f : InForce) (i : Option Nat) :
    let st := Step.ofRecord f.bytes
    let entered := (s.setRun b ((s.bowl b).run.atEntry f i)).noteClamp b st.durationClamped
    (s.bowl b).TakesEntry ((s.enterStep b f i).bowl b) (entered.entryCauses b).any st := by
  intro st entered
  let r := (s.bowl b).run.atEntry f i
  have hx : entered.bowl b =
      { s.bowl b with run := { r with flags := { r.flags with l := r.flags.l || st.durationClamped } } } := by
    show ((s.setRun b _).noteClamp b _).bowl b = _
    simp [r]
  generalize hc : entered.entryCauses b = causes
  generalize hp : entered.setRun b { (entered.bowl b).run with pauses := causes } = paused at *
  have hpb : paused.bowl b = { entered.bowl b with run := { (entered.bowl b).run with pauses := causes } } := by
    rw [← hp]; simp
  generalize hk : (if causes.any then paused.giveRest b false else paused.handParts b) = k
  have hkb : k.bowl b = if causes.any then (paused.giveRest b false).bowl b else (paused.handParts b).bowl b := by
    rw [← hk]; split <;> rfl
  have hz : (s.enterStep b f i).bowl b =
      { (k.armWeigh b st.weigh).bowl b with run := ((s.enterStep b f i).bowl b).run } ∧
      (((s.enterStep b f i).bowl b).run.flags = ((k.armWeigh b st.weigh).bowl b).run.flags) := by
    have : s.enterStep b f i = (
      let s := k.armWeigh b st.weigh
      let s := if st.prompt.isSome then s.raise (.ofBowl b .prompt) else s
      let s := s.raise (.ofBowl b .step)
      if causes.any then
        (s.setRun b { (s.bowl b).run with state := .paused, resume := some .running }).raise (.ofBowl b .paused)
      else s) := by rw [← hk, ← hp, ← hc]; rfl
    rw [this]; dsimp only
    by_cases h1 : causes.any = true <;> by_cases h2 : st.prompt.isSome = true <;> simp [h1, h2]
  have hkw : k.bowl b = { k.bowl b with weigh := (s.bowl b).weigh } := by
    rw [hkb]; split
    · simp [hpb, hx]
    · rw [State.bowl_handParts]; simp [hpb, hx]
  have hkl : ((entered.bowl b).run.flags.l = true → (k.bowl b).run.flags.l = true) := by
    intro h; rw [hkb]; split
    · simp [hpb, h]
    · rw [State.bowl_handParts]; simp [hpb, h]
  have hel : ∀ d, st.duration = some d → 216000 < d → (entered.bowl b).run.flags.l = true := by
    intro d h1 h2; rw [hx]; simp [Step.durationClamped, h1, h2]
  obtain ⟨hz1, hz2⟩ := hz
  have harm := State.bowl_armWeigh k b st.weigh
  have hheat : ((s.enterStep b f i).bowl b).heat = (k.bowl b).heat := by
    rw [hz1]; simp only []; rw [harm]; cases st.weigh <;> rfl
  have hstir : ((s.enterStep b f i).bowl b).stir = (k.bowl b).stir := by
    rw [hz1]; simp only []; rw [harm]; cases st.weigh <;> rfl
  have hl : (k.bowl b).run.flags.l = true → ((s.enterStep b f i).bowl b).run.flags.l = true := by
    intro h; rw [hz2, harm]; cases st.weigh <;> simp [h]
  refine ⟨fun hn => ?_, fun hn => ?_, fun w hw => ⟨?_, fun hw2 => ?_⟩, fun hw => ?_, fun d h1 h2 => hl (hkl (hel d h1 h2))⟩
  · have this := State.handParts_takes paused b
    rw [show paused.handParts b = k by rw [← hk, if_neg (by simp [hn])]] at this
    refine Bowl.TakesParts.of_eq (y := k.bowl b) ?_ hheat hstir hl
    simp only [hpb, hx] at this
    exact ⟨this.heat, this.noHeat, this.heatClamps, this.stir, this.overrideAlone, this.noStir⟩
  · rw [hheat, hstir, hkb, if_pos hn]
    simp only [State.bowl_giveRest, hpb, hx]
    exact ⟨HeatUnit.handNoHeat_rests _, StirUnit.handZero_rests _⟩
  · rw [hz1]; simp only []; rw [harm, hw, hkw]; rfl
  · rw [hz2, harm, hw]; simp [Channel.arm, hw2]
  · rw [hz1]; simp only []; rw [harm, hw, hkw]; rfl

/-! ## The shares of a window start (R127) -/

/-- A bowl after its share of a window start (R127). -/
theorem State.bowl_handResults (s : State) (a : Account) (b : BowlId) :
    (s.handResults a b).bowl b =
      (let x := s.bowl b
       let f := x.stir.takeCeiling (a.motors.get b).ceiling
       { x with
        heat := x.heat.takeGrant x.cal.values.mode (a.heaters.get b).posted (a.heaters.get b).grant
        stir := f.1
        run := { x.run with flags := { x.run.flags with l := x.run.flags.l || f.2, b := x.run.flags.b || a.shortBowl b } } }) := by
  unfold State.handResults State.noteShort
  dsimp only
  cases a.shortBowl b <;> simp [State.setFlags]

/-- A window start's share of one bowl leaves the other bowl. -/
theorem State.other_handResults (s : State) (a : Account) (b : BowlId) :
    (s.handResults a b).bowl (otherBowl b) = s.bowl (otherBowl b) := by
  unfold State.handResults State.noteShort
  dsimp only
  cases a.shortBowl b <;> simp [State.setFlags]

/-- A window start's shares raise no notice and leave the arbiter. -/
theorem State.handResults_shared (s : State) (a : Account) (b : BowlId) :
    (s.handResults a b).notices = s.notices ∧ (s.handResults a b).arbiter = s.arbiter := by
  unfold State.handResults State.noteShort State.noteClamp
  dsimp only
  split <;> split <;> exact ⟨rfl, rfl⟩

/-- A zero-cross while the mains is PRESENT restarts the gap timer in every case, and the mains stays PRESENT (R123, R124). -/
theorem State.halfCycle_restarts (s : State) :
    s.halfCycle.arbiter.present = s.arbiter.present ∧ s.halfCycle.arbiter.gap = some 25 ∧
      s.halfCycle.arbiter.sinceCross = some 0 ∧
      s.halfCycle.arbiter.overtaken = (s.arbiter.overtaken || decide (s.arbiter.gap = some 0)) := by
  have start (t : State) : t.windowStart.arbiter = t.arbiter.record t.nextAccount := by
    unfold State.windowStart
    dsimp only
    split <;> simp [(State.handResults_shared _ _ _).2]
  unfold State.halfCycle
  split
  · split <;> simp [State.handPosition, start, Arbiter.record]
  · simp [State.handPosition, start, Arbiter.record]

end Sys2Proof.Machine
end

