-- ==== Sys2Proof/Tests/Slice0.lean ====
section
/-! SUPPORT. Tests on fixed values, each expected result taken from spec/, and for every statement with hypotheses a concrete
case that meets them, one for each of its clauses. -/

namespace Sys2Proof.Tests

open Sys2Proof Sys2Proof.Machine

/-! ## Small states -/

/-- A transfer on port A with tag 0x2A and no fill bytes. -/
def xa : Xfer := ⟨.portA, 0x2A, 0⟩

/-- The part after an autoload. -/
def loaded : State := { State.reset with image := ⟨.loaded, none, none⟩ }

/-- The part after an autoload with bowl 1 changed. -/
def withOne (f : Bowl → Bowl) : State := loaded.setBowl .one (f .initial)

/-- Bowl 1 with this run context. -/
def withRun (r : RunContext) : State := withOne fun x => { x with run := r }

/-- Bowl 1 with this stirring unit. -/
def withStir (u : StirUnit) : State := withOne fun x => { x with stir := u }

/-- Bowl 1 with this heating unit. -/
def withHeat (h : HeatUnit) : State := withOne fun x => { x with heat := h }

/-- Bowl 1 with this weighing channel and a calibrated scale. -/
def withWeigh (c : Channel) : State :=
  withOne fun x => { x with weigh := c, cal := { x.cal with values := { x.cal.values with gain := 20972 } } }

/-- The part with this recipe store. -/
def withStore (st : Store) : State := loaded.setStore st

/-- A store whose slot 7 holds one entry. -/
def slotSeven (e : Entry) : Store := Store.initial.setEntry 7 e

/-- The part with this arbiter. -/
def withArbiter (a : Arbiter) : State := { loaded with arbiter := a }

/-- A record of only a flow: 0 NEXT, 64 FINISH. -/
def flowRecord (flow : Byte) : Record := recordOfBytes (0 :: flow :: List.replicate 20 0)

/-- A run context of slot 7 at index `i` with a record of this flow. -/
def running (flow : Byte) (i : Nat) : RunContext :=
  { RunContext.initial with
    state := .running, source := .slot 7, stepIndex := some i, record := some ⟨flowRecord flow, none⟩ }

/-- A run context paused from a state. -/
def paused (back : ResumeState) : RunContext := { running 64 0 with state := .paused, resume := some back }

/-! ## Well-formedness -/

theorem test_wf_refuses_long_request : (Instr.nop xa (List.replicate 36 0)).wf = false := by decide

theorem test_wf_takes_longest_request : (Instr.nop xa (List.replicate 35 0)).wf = true := by decide

theorem test_wf_refuses_good_frame_as_bad : (Instr.badFrame .portA [0xA5, 5, 0, 0, 0x56]).wf = false := by decide

theorem test_wf_refuses_no_byte_as_bad : (Instr.badFrame .portA []).wf = false := by decide

theorem test_wf_refuses_known_code_as_unknown : (Instr.unknownRequest xa 0x22 [1]).wf = false := by decide

theorem test_wf_takes_unknown_code : (Instr.unknownRequest xa 0x08 []).wf = true := by decide

/-! ## Frames (R159, R160): the bytes of a NOP with tag 0, and of a PAUSE of bowl 1 with tag 7 -/

theorem test_decode_nop : commandOfTransfer .portA [0xA5, 5, 0, 0, 0x56] = .nop ⟨.portA, 0, 0⟩ [] := by decide

theorem test_decode_pause :
    commandOfTransfer .portB [0xA5, 6, 0x22, 7, 1, 0x2B, 0xFF, 0xFF] = .pause ⟨.portB, 7, 2⟩ [1] := by decide

theorem test_decode_start : commandOfTransfer .portA [0xA5, 8, 0x20, 1, 2, 3, 4, 0x29] = .start ⟨.portA, 1, 0⟩ [2, 3, 4] := by
  decide

theorem test_decode_open_recipe :
    commandOfTransfer .portA [0xA5, 8, 0x10, 1, 0x12, 0x34, 5, 0xF7] = .openRecipe ⟨.portA, 1, 0⟩ [0x12, 0x34, 5] := by decide

theorem test_decode_tare : commandOfTransfer .portA [0xA5, 6, 0x28, 0, 2, 0x2B] = .tare ⟨.portA, 0, 0⟩ [2] := by decide

theorem test_decode_ack_notice :
    commandOfTransfer .portB [0xA5, 7, 0x04, 9, 0x20, 0x01, 0x26] = .ackNotice ⟨.portB, 9, 0⟩ [0x20, 0x01] := by decide

theorem test_decode_power_cap :
    commandOfTransfer .portA [0xA5, 7, 0x40, 0, 0, 0xC8, 0x4C] = .setPowerCap ⟨.portA, 0, 0⟩ [0, 0xC8] := by decide

theorem test_decode_calibrate_zero :
    commandOfTransfer .portA [0xA5, 6, 0x30, 0, 1, 0x24] = .calibrateZero ⟨.portA, 0, 0⟩ [1] := by decide

theorem test_decode_bad_checksum :
    commandOfTransfer .portA [0xA5, 5, 0, 0, 0x57] = .badFrame .portA [0xA5, 5, 0, 0, 0x57] := by decide

theorem test_decode_unknown_code :
    commandOfTransfer .portA [0xA5, 5, 0x50, 3, 0x03] = .unknownRequest ⟨.portA, 3, 0⟩ 0x50 [] := by decide

theorem test_no_table_words (nbits w : Nat) : decodeTableWord nbits w = none := rfl

/-! ## Worked examples of the chapters -/

/-- Section 1.9: the 50-step open passes over (0, 40) and takes the front of (200, 56); a 45-step open then finds no extent. -/
theorem test_first_fit :
    firstFit [⟨0, 40⟩, ⟨200, 56⟩] 50 = some (200, [⟨0, 40⟩, ⟨250, 6⟩]) ∧ firstFit [⟨0, 40⟩, ⟨250, 6⟩] 45 = none := by decide

/-- Section 1.9: the extent 40 to 139 returns and merges with the free extent before it. -/
theorem test_return_extent : returnExtent [⟨0, 40⟩, ⟨250, 6⟩] ⟨40, 100⟩ = [⟨0, 140⟩, ⟨250, 6⟩] := by decide

/-- The six steps of section 1.10; index 3 branches to `target`. -/
def sealSteps (target : Nat) : List Step :=
  [{ Step.blank with heat := some ⟨1000, none⟩, triggers := ⟨false, true, false, false⟩ },
    { Step.blank with stir := some ⟨400, .forward, none⟩, duration := some 300, triggers := ⟨true, false, false, false⟩,
                      loopOpen := some 3 },
    { Step.blank with weigh := some ⟨200, 5, true⟩, triggers := ⟨false, false, true, false⟩, loopClose := true,
                      breakTest := some (.o, true) },
    { Step.blank with prompt := some 12, triggers := ⟨false, false, false, true⟩, flow := .branch .n true target },
    { Step.blank with duration := some 600, triggers := ⟨true, false, false, false⟩ },
    { Step.blank with flow := .hold .auto 0 }]

/-- Section 1.10: the three seals, with index 4 unwritten (a blank record) in the first two. -/
theorem test_seal_three_times :
    validate [0, 1, 2, 3, 5] ((sealSteps 2).set 4 .blank) = some ⟨3, .branchTarget⟩ ∧
      validate [0, 1, 2, 3, 5] ((sealSteps 1).set 4 .blank) = some ⟨4, .unwritten⟩ ∧
      validate [0, 1, 2, 3, 4, 5] (sealSteps 1) = none := by decide

/-- R5: a record with heat 100.0 °C, stir 400 rpm REVERSE, duration 30.0 s, triggers TIME and TEMP under ALL, flow BRANCH on
flag 7 CLEAR to 9, laid out byte by byte. -/
theorem test_record_fields :
    let st := Step.ofRecord (recordOfBytes [0x15, 0x33, 0, 200, 0, 0, 20, 1, 0, 0, 0, 0, 0, 0, 0, 1, 44, 0, 0, 0, 7, 9])
    st.heat = some ⟨1000, none⟩ ∧ st.stir = some ⟨400, .reverse, none⟩ ∧ st.duration = some 300 ∧
      st.triggers = ⟨true, true, false, false⟩ ∧ st.all = true ∧ st.flow = .branch .n false 9 ∧ st.weigh = none := by decide

/-- Chapter 3, filter and mass arithmetic: the two samples after a load of 100.0 g. -/
theorem test_filter_and_mass :
    let v := { CalValues.defaults with zero := 120000, gain := 20972 }
    let c := { Channel.initial with filter := some 30720000, reloadPending := false }
    c.filtered 64 170000 = 33920000 ∧ rawMass v 33920000 = 250 ∧
      { c with filter := some 33920000 }.filtered 64 170000 = 36320000 ∧ rawMass v 36320000 = 438 := by decide

/-- R82: code 1,500 is 74.7 °C; the ends of the table and the codes beyond them. -/
theorem test_temperature_codes :
    tempOfCode 1500 = some 747 ∧ tempOfCode 96 = some (-200) ∧ tempOfCode 3936 = some 2500 ∧ tempOfCode 95 = none ∧
      tempOfCode 3937 = none := by decide

/-- Section 4.7, one regulation step: I goes from 1,000 to 1,040 and d is 19. -/
theorem test_regulation :
    let h : HeatUnit := HeatUnit.regulate
      { HeatUnit.initial with temp := some 920, effective := some 1000, integral := 1000, active := some .main,
                              relayMain := .closed, order := .step 1000 none none }
      CalValues.defaults
    h.integral = 1040 ∧ h.lastError = 80 ∧ h.computed = 19 ∧ h.posted = 19 := by decide

/-- A heater on MAIN or KEEP with a posted demand. -/
def heater (e : Element) (rating d : Nat) : HeaterDemand := ⟨some e, some rating, d⟩

/-- Section 6.13, window n: heater 1 in full, heater 2 short with 18, the pointer moves. -/
theorem test_window_n :
    let a := accountOf 1 360 .stay .one ⟨900, 900⟩ ⟨heater .main 140 20, heater .main 140 20⟩
    a.heaters.one.grant = 20 ∧ a.heaters.two.grant = 18 ∧ a.leftOver = 80 ∧ a.pointerAfter = .two ∧
      a.shortBowl .one = false ∧ a.shortBowl .two = true := by decide

/-- Section 6.14: the same demands under STAY and under FIT. -/
theorem test_stay_and_fit :
    let stay := accountOf 1 200 .stay .one ⟨900, 900⟩ ⟨heater .main 140 20, heater .keep 30 20⟩
    let fit := accountOf 1 200 .fit .one ⟨900, 900⟩ ⟨heater .main 140 20, heater .keep 30 20⟩
    (stay.heaters.one.grant, stay.heaters.two.grant, stay.leftOver, stay.pointerAfter) = (15, 3, 10, .one) ∧
      (fit.heaters.one.grant, fit.heaters.two.grant, fit.leftOver, fit.pointerAfter) = (11, 20, 60, .two) := by decide

/-- Section 6.15: the squeeze gives each motor 1,200 and a ceiling of 6,000 rpm. -/
theorem test_motor_squeeze :
    let a := accountOf 1 120 .stay .one ⟨1600, 1600⟩ ⟨heater .main 140 10, heater .main 140 10⟩
    a.motors.one = ⟨1600, 1200, some 6000⟩ ∧ a.motors.two = ⟨1600, 1200, some 6000⟩ ∧ a.remainder = 0 ∧
      a.heaters.one.grant = 0 ∧ a.heaters.two.grant = 0 ∧ a.pointerAfter = .one := by decide

/-- Section 7.10: the average 13,002.5 becomes 13,002, and the span gives G 20,971. -/
theorem test_zero_and_span :
    roundConv 416080 32 = 13002 ∧ roundConv (5000 * 2 ^ 20) 250008 = 20971 := by decide

/-- Section 8.7, the first two transfers: the none response goes out, then the NOP's response and two fill bytes. -/
theorem test_pairing :
    let q1 := Port.initial.after 5 ⟨5, .ok, []⟩
    q1.sent = [0, 0, 0, 0, 0xFF] ∧ q1.sends 6 = [5, 0, 0, 0xFB, 0xFF, 0xFF] := by decide

/-! ## One step each -/

/-- A command as the only one waiting, in a state. -/
def after (s : State) (c : Instr) : State :=
  match step { s with pending := [c] } with
  | .next t => t
  | .fault _ => s
  | .refused _ => s

/-- R157, R165: the NOP's response carries its tag and is pending. -/
theorem test_nop_response : ((after loaded (.nop xa [])).ports.portA).response = some ⟨0x2A, .ok, []⟩ := by decide

/-- R14: the first open after power-on takes slot 0 at address 0 and leaves (40, 216). -/
theorem test_open_recipe :
    (after loaded (.openRecipe xa [1, 1, 40])).store.free = [⟨40, 216⟩] ∧
      (after loaded (.openRecipe xa [1, 1, 40])).ports.portA.response = some ⟨0x2A, .ok, [0, 0]⟩ := by decide

/-- R30, R31: a manual stir at 400 rpm for 60.0 s with the lid closed, before the mains is present: PAUSED with MAINS. -/
theorem test_manual_pauses_without_mains :
    let s := withStir { StirUnit.initial with lid := switchRead .closed }
    ((after s (.manual xa [1, 2, 0, 0, 0, 20, 0, 0, 2, 88])).bowl .one).run.pauses = ⟨false, false, true⟩ := by decide

/-- R125: the tenth zero-cross 10 ms after the ninth restores the mains. -/
theorem test_restoration :
    (after (withArbiter { Arbiter.initial with restoration := 9, sinceCross := some 10000, gap := some 15 })
      (.zeroCrossArrival 10000)).arbiter.present = true := by decide

/-- R85: code 3,700, above 200.0 °C, latches and faults. -/
theorem test_over_temperature :
    let t := after loaded (.temperatureConversion .one 3700)
    (t.bowl .one).heat.latch = true ∧ (t.bowl .one).run.state = .fault ∧ (t.bowl .two).run.state = .idle := by decide

/-- R61: the upper overload value sets the overload status and loads nothing. -/
theorem test_overload :
    let c := ((after (withWeigh Channel.initial) (.loadCellConversion .one 0x7FFFFF)).bowl .one).weigh
    c.overload = true ∧ c.filter = none := by decide

/-- R107: 30 pulses in 50 ms are 600 rpm. -/
theorem test_tacho : ((after loaded (.tachoMeasurement .two 30)).bowl .two).stir.measured = 600 := by decide

/-- R113: a lock speed above 1,200 rpm with the lid closed engages the lock; the confirm switch is open, so ENGAGING. -/
theorem test_lock_engages :
    let u := (StirUnit.handStir { StirUnit.initial with lid := switchRead .closed, mainsHold := false, hot := some 250 } true
      ⟨2000, .forward, none⟩).1
    u.lock = .engaging ∧ u.lockTimer = some 500 ∧ u.target = 1200 := by decide

/-- R77, R79: a TARE after a conversion moves the tare point; the added mass shown stays the one that conversion formed. -/
theorem test_tare_keeps_added_mass :
    let s := withWeigh { Channel.initial with massAvailable := true, mass := 500, stable := true, added := 500 }
    let c := ((after s (.tare xa [1])).bowl .one).weigh
    c.tarePoint = 500 ∧ c.shownAdded = some 500 := by decide

/-- R98, R134: on MAIN with 12 half-cycles granted, switched to KEEP and back within the window, nothing more is fired in it. -/
theorem test_switch_back_leaves_grant_unfired :
    let h := { HeatUnit.initial with
      order := .hold 650, active := some .main, relayMain := .closed, relayKeep := .settling, settle := some ⟨.keep, 0⟩
      pendingSwitch := some .main, grant := 12, grantStage := some .main }
    let back := (h.settleExpiry .defaults).settleExpiry .defaults
    (h.fire 3).firing = some .main ∧ back.active = some .main ∧ back.relayMain = .closed ∧ back.grant = 12 ∧
      (back.fire 5).firing = none := by decide

/-- R111: the PWM output is off at setpoint 0 and else drives toward the setpoint in the drive direction. -/
theorem test_pwm :
    StirUnit.initial.pwm = .off ∧
      { StirUnit.initial with setpoint := 400, drive := .reverse }.pwm = .toward 400 .reverse := by decide

/-- R142, R154: page 7 goes to device 0x50 at word address 112, 16 bytes of it. -/
theorem test_page_access :
    let a := SaveJob.pageAccess ⟨Vector.replicate 128 0xFF, 7, 10⟩
    a.device = 0x50 ∧ a.word = 112 ∧ a.writes = List.replicate 16 0xFF := by decide

/-- Section 2.6, worked example: the NO answer loops back with count 2, the YES answer breaks the loop, and the branch to index 1
pops the loop that opens there. -/
theorem test_loop_close :
    let st := { Step.blank with loopClose := true, breakTest := some (.y, true) }
    loopClose st (some 3) [⟨1, 3, 3⟩] { FlagWord.clear with n := true } = ([⟨1, 3, 2⟩], some 1) ∧
      loopClose st (some 3) [⟨1, 3, 2⟩] { FlagWord.clear with y := true } = ([], none) ∧
      popFor [⟨1, 3, 3⟩] 1 = [] ∧ popFor [⟨1, 3, 3⟩] 2 = [⟨1, 3, 3⟩] := by decide

/-- Section 4.13: the tenth window in a row with a demand of 4 or below on MAIN starts the switch to KEEP; MAIN goes on firing. -/
theorem test_tenth_low_window :
    let s := (withHeat { HeatUnit.initial with
      order := .step 1000 none none, target := some 1000, effective := some 1000, active := some .main
      relayMain := .closed, posted := 2, lowCount := 9 })
    let t := after { s with arbiter := { Arbiter.initial with present := true } } (.zeroCrossArrival 10000)
    let h := (t.bowl .one).heat
    h.settle = some ⟨.keep, 60⟩ ∧ h.lowCount = 0 ∧ h.grant = 2 ∧ h.firing = some .main := by decide

/-- R154: the eighth page acknowledged ends the save OK. -/
theorem test_last_page :
    (after { loaded with image := ⟨.loaded, some ⟨Vector.replicate 128 0, 7, 4⟩, none⟩ } (.eepromPageWriteDone true)).image.lastSave =
      some .ok := by decide

/-- A config settle with 1 ms left: one millisecond without a command queues its expiry (assumption log entry 1). -/
theorem test_tick_queues_expiry :
    (match step (withHeat { HeatUnit.initial with configSettle := some 1 }) with
      | .next t => t.pending
      | .fault _ => []
      | .refused _ => []) = [.configSettleExpiry .one] := by decide

/-! ## Cases that meet the hypotheses of the statements, clause by clause -/

/-- Bowl 1 in a state, with no run. -/
def inState (st : BowlState) : State := withRun { RunContext.initial with state := st }

/-- The part held in reset. -/
def held : State := { loaded with inReset := true }

/-- Slot 7 READY at address 0 with `length` steps, on a bowl whose lid is closed. -/
def readyToStart (mem : List (Nat × Record)) (length : Nat) (users : PerBowl Bool) (weighs : Bool) : State :=
  (withStir { StirUnit.initial with lid := switchRead .closed }).setStore
    { slotSeven (.ready 1 0 length users weighs) with mem := mem, free := [⟨length, 256 - length⟩] }

/-- A two-step loop on bowl 1, RUNNING its close with the count at 2. -/
def looping : State :=
  (readyToStart [(0, recordOfBytes ([64, 0] ++ List.replicate 16 0 ++ [3, 0, 0, 0])), (1, recordOfBytes ([128, 64] ++ List.replicate 20 0))] 2
    ⟨true, false⟩ false).setRun .one
    { running 0 1 with record := some ⟨recordOfBytes ([128, 64] ++ List.replicate 20 0), none⟩, loops := [⟨0, 1, 2⟩] }

/-- R39: a skipped close with passes left enters the open step and leaves the loop with one pass less. -/
theorem test_skip_loops_back :
    let r := ((after looping (.skipStep xa [1])).bowl .one).run
    r.stepIndex = some 0 ∧ r.loops = [⟨0, 1, 1⟩] := by decide

/-- Slot 7 READY with one step of 100.0 °C, 600 rpm REVERSE and 500 g with a tare, on a bowl with its lid closed and its mains
there; `present` says whether the arbiter has it. -/
def partsReady (present : Bool) : State :=
  let bytes : List Byte := [13, 64, 0, 200, 0, 0, 30, 1, 0, 0, 1, 244, 5, 0] ++ List.replicate 8 0
  let s := readyToStart [(0, recordOfBytes bytes)] 1 ⟨false, false⟩ false
  { s.setStir .one { StirUnit.initial with lid := switchRead .closed, mainsHold := false } with
    arbiter := { Arbiter.initial with present := present } }

/-- R32, R71, R88, R94, R97, R109, R112: a START hands the start step's parts. -/
theorem test_start_hands_parts :
    let x := (after (partsReady true) (.start xa [1, 7, 0])).bowl .one
    x.run.state = .running ∧ x.heat.order = .step 1000 none none ∧ x.heat.target = some 1000 ∧
      x.heat.effective = some 1000 ∧ x.heat.relayMain = .settling ∧ x.heat.settle = some ⟨.main, 60⟩ ∧
      x.stir.order = .stir 600 .reverse none ∧ x.stir.drive = .reverse ∧ x.stir.target = 600 ∧
      x.weigh.part = some ⟨5000, 50, .pending⟩ := by decide

/-- R31: with mains absent the entry hands no heat and speed 0, and still arms the weigh part. -/
theorem test_paused_start_hands_rest :
    let x := (after (partsReady false) (.start xa [1, 7, 0])).bowl .one
    x.run.state = .paused ∧ x.heat.order = .noHeat ∧ x.heat.settle = none ∧ x.stir.order = .speedZero ∧ x.stir.target = 0 ∧
      x.weigh.part = some ⟨5000, 50, .pending⟩ := by decide

/-- R32, R89: a RESUME hands the parts again with the overrides; with no effective target held a ramp starts at the measured
temperature. -/
theorem test_resume_hands_overrides :
    let bytes : List Byte := [7, 64, 0, 200, 50] ++ List.replicate 17 0
    let r := { paused .running with
      record := some ⟨recordOfBytes bytes, none⟩, partsHanded := true, offset := some 50, speedOverride := some 240 }
    let s := { (partsReady true).setRun .one r with
      bowls := ((partsReady true).setRun .one r).bowls.set .one
        { ((partsReady true).setRun .one r).bowl .one with heat := { HeatUnit.initial with temp := some 400 } } }
    let x := (after s (.resume xa [1])).bowl .one
    x.run.state = .running ∧ x.heat.target = some 1050 ∧ x.heat.effective = some 400 ∧ x.heat.rampLimit = some 50 ∧
      x.stir.order = .stir 240 .forward none ∧ x.stir.target = 240 := by decide

/-- Section 6.14: STAY and FIT against the same demands, from a remainder of 2,200. -/
theorem test_stay_and_fit_amounts :
    let dh : PerBowl HeaterDemand := ⟨⟨some .main, some 140, 20⟩, ⟨some .keep, some 30, 20⟩⟩
    let stay := accountOf 1 200 .stay .one ⟨900, 900⟩ dh
    let fit := accountOf 1 200 .fit .one ⟨900, 900⟩ dh
    (stay.heaters.one.grant, stay.heaters.two.grant, stay.leftOver, stay.pointerAfter) = (15, 3, 10, .one) ∧
      (fit.heaters.one.grant, fit.heaters.two.grant, fit.leftOver, fit.pointerAfter) = (11, 20, 60, .two) := by decide

theorem test_case_StepTakesFrontCommandOrCounts :
    { loaded with pending := [.powerOn, .gapTimerExpiry] }.pending = [.powerOn, .gapTimerExpiry] ∧
      (held.pending = [] ∧ held.inReset = true) ∧ loaded.pending = [] ∧ loaded.inReset = false := by decide

theorem test_case_PowerAndResetRestartAndHold :
    held.inReset = true ∧ loaded.inReset = false ∧ Instr.eepromPageTimeout ≠ .powerOn ∧
      Instr.eepromPageTimeout ≠ .resetPinAssert ∧ Instr.eepromPageTimeout ≠ .resetPinRelease := by decide

theorem test_case_RequestAnsweredByItsOwner :
    (Instr.nop xa (List.replicate 35 0)).wf = true ∧
      (Instr.nop xa (List.replicate 35 0)).requestParts = some (0, xa, List.replicate 35 0) ∧
      ownerOf 0 .portA (List.replicate 35 0) = some (answerNop (List.replicate 35 0)) ∧ loaded.takes .portA :=
  ⟨by decide, rfl, rfl, rfl, rfl⟩

theorem test_case_BadAndUnknownFramesAnswered :
    isBadFrame [0] = true ∧ isBadFrame (List.replicate 60 0xA5) = true ∧
      (Instr.unknownRequest xa 0xFF (List.replicate 35 1)).wf = true ∧ loaded.takes .portA ∧
      (loaded.ports.get .portA).empty :=
  ⟨by decide, by decide, by decide, ⟨rfl, rfl⟩, ⟨rfl, rfl⟩⟩

theorem test_case_EmptyAndEarlyTransfersDeliverNothing :
    (loaded.takes .portB ∧ (loaded.ports.get .portB).empty) ∧ encodeTransfer (.badFrame .portB [7]) = some (.portB, [7]) ∧
      ((loaded.setPort .portB { Port.initial with ready := false }).ports.get .portB).ready = false :=
  ⟨⟨⟨rfl, rfl⟩, rfl, rfl⟩, rfl, rfl⟩

theorem test_case_TransferBytesReadBack :
    (Instr.writeStep ⟨.portB, 255, 9⟩ (List.replicate 24 0xA5)).wf = true ∧
      (encodeTransfer (.writeStep ⟨.portB, 255, 9⟩ (List.replicate 24 0xA5))).isSome = true ∧
      encodeTransfer (.emptyTransfer .portA 0) = some (.portA, []) ∧ (Instr.badFrame .portA [0xA5]).wf = true ∧
      encodeTransfer (.badFrame .portA [0xA5]) = some (.portA, [0xA5]) := by decide

theorem test_case_OpenRecipeAllocatesFirstFit :
    let full := { Store.initial with table := Vector.replicate 8 (.ready 1 0 1 ⟨false, false⟩ false) }
    let short := { Store.initial with free := [⟨0, 127⟩] }
    (withStore full).takes .portA ∧ (withStore short).takes .portA ∧ loaded.takes .portA ∧ full.lowestFree = none ∧
      short.lowestFree = some 0 ∧ firstFit short.free 128 = none ∧
      Store.initial.lowestFree = some 0 ∧ firstFit Store.initial.free 128 = some (0, [⟨128, 128⟩]) ∧
      firstFit [⟨0, 128⟩] 128 = some (0, []) ∧ (0 : Byte).toNat < 1 ∧ 128 < (129 : Byte).toNat := by
  unfold State.takes; decide

theorem test_case_WriteStepStoresRecord :
    (withStore (slotSeven (.loading 1 .portA 128 128 [] none))).takes .portA ∧
      (slotSeven (.loading 1 .portA 128 128 [] none)).entry (7 : Byte).toNat = .loading 1 .portA 128 128 [] none ∧
      (127 : Byte).toNat < 128 ∧ recordOk (recordOfBytes (List.replicate 22 0)) = true ∧ (7 : Byte).toNat < 8 := by
  unfold State.takes; decide

theorem test_case_SealRecipeReportsLowestFault :
    let st := { slotSeven (.loading 1 .portA 0 1 [0] none) with mem := [(0, flowRecord 64)], free := [⟨1, 255⟩] }
    let bad := { slotSeven (.loading 1 .portA 0 1 [0] none) with mem := [(0, flowRecord 0)], free := [⟨1, 255⟩] }
    (withStore st).takes .portA ∧ (withStore bad).takes .portA ∧
      st.entry (7 : Byte).toNat = .loading 1 .portA 0 1 [0] none ∧
      bad.entry (7 : Byte).toNat = .loading 1 .portA 0 1 [0] none ∧
      validate [0] ((withStore st).loadingSteps 0 1 [0]) = none ∧
      validate [0] ((withStore bad).loadingSteps 0 1 [0]) = some ⟨0, .fallsOff⟩ := by unfold State.takes; decide

theorem test_case_RecipesRemoved :
    (∀ e ∈ [Entry.loading 1 .portB 0 256 [] none, .ready 1 0 256 ⟨false, true⟩ true],
        (withStore (slotSeven e)).takes .portB) ∧
      (slotSeven (.loading 1 .portB 0 256 [] none)).entry 7 = .loading 1 .portB 0 256 [] none ∧
      (slotSeven (.ready 1 0 256 ⟨false, false⟩ true)).entry 7 = .ready 1 0 256 ⟨false, false⟩ true ∧
      (slotSeven (.ready 1 0 256 ⟨false, true⟩ true)).entry 7 = .ready 1 0 256 ⟨false, true⟩ true := by
  unfold State.takes; decide

theorem test_case_ReadsAndPortRequests : loaded.takes .portA ∧ bowlOf 1 = some .one ∧ bowlOf 2 = some .two :=
  ⟨⟨rfl, rfl⟩, by decide, by decide⟩

theorem test_case_StartBeginsRun :
    let s := readyToStart [(0, flowRecord 0), (1, flowRecord 64)] 2 ⟨false, false⟩ false
    let u := s.setStir .one StirUnit.initial
    let v := u.setHeat .one { HeatUnit.initial with temp := some 600 }
    let free (s : State) := ((s.readySteps 0 2).getD (1 : Byte).toNat .blank).lidFree none none (s.bowl .one).heat.temp
    s.takes .portA ∧ bowlOf 1 = some .one ∧ s.image.autoload ≠ .inFlight ∧ (s.bowl .one).run.state = .idle ∧
      (s.bowl .one).heat.configSettle = none ∧ s.store.entry (7 : Byte).toNat = .ready 1 0 2 ⟨false, false⟩ false ∧
      startIndexOk (s.readySteps 0 2) (1 : Byte).toNat = true ∧ (s.bowl .one).stir.lid.level = .closed ∧
      (u.bowl .one).stir.lid.level = .opened ∧ free u = false ∧ free v = true := by
  unfold State.takes; decide

/-- The clauses of a step's entry: heat, stir and weigh parts with and without each, and with and without mains. -/
theorem test_case_TakesEntry :
    let st := Step.ofRecord ((partsReady true).recordAt 0)
    let blank := Step.ofRecord (flowRecord 64)
    (∀ p, (partsReady p).takes .portA ∧ (partsReady p).arbiter.present = p ∧
      ((partsReady p).bowl .one).stir.lid.level = .closed ∧ (partsReady p).store.entry 7 = .ready 1 0 1 ⟨false, false⟩ false ∧
      startIndexOk ((partsReady p).readySteps 0 1) 0 = true) ∧
      st.heat = some ⟨1000, none⟩ ∧ st.stir = some ⟨600, .reverse, none⟩ ∧ st.weigh = some ⟨500, 5, true⟩ ∧
      blank.heat = none ∧ blank.stir = none ∧ blank.weigh = none := by
  refine ⟨fun p => ?_, by decide⟩
  cases p <;> (unfold State.takes; decide)

/-- The clauses of a STEP order: ramped and not, new and continued, latched, both relays OPEN, a stage active that stays or is
switched, and a settle in flight. -/
theorem test_case_TakesStep :
    let h := HeatUnit.initial
    let onKeep := { h with active := some .keep, relayKeep := .closed, order := .step 1000 none none, effective := some 1000 }
    (h.ordered = false ∧ h.effective = none ∧ h.latch = false ∧ h.relayMain = .opened ∧ h.relayKeep = .opened) ∧
      (onKeep.ordered = true ∧ onKeep.effective = some 1000 ∧ onKeep.relayKeep ≠ .opened ∧ onKeep.settle = none ∧
        StageMode.mainOnly ≠ .auto ∧ Element.keep ≠ StageMode.mainOnly.stepStage ∧
        Element.keep = StageMode.keepOnly.stepStage) ∧
      { onKeep with settle := some ⟨.main, 1⟩ }.settle = some ⟨.main, 1⟩ ∧ { h with latch := true }.latch = true := by decide

/-- The clauses of a STIR order: the cases of R112, and a clamp of speed and of a time. -/
theorem test_case_TakesStir :
    let u := StirUnit.initial
    let turning := { u with standstill := .notReached, setpoint := 600 }
    let reversing := { turning with pendingDir := some .reverse, reversalHold := true }
    (u.directionInEffect = .forward ∧ u.pendingDir = none ∧ u.standstill = .reached ∧ u.setpoint = 0) ∧
      (turning.directionInEffect = .forward ∧ turning.pendingDir = none ∧ turning.standstill ≠ .reached) ∧
      reversing.pendingDir = some .reverse ∧ Direction.forward ≠ .reverse ∧ reversing.drive = .forward ∧
      (Step.ofRecord (recordOfBytes ([4, 64, 0, 0, 0, 1, 255, 2, 60, 61] ++ List.replicate 12 0))).stir =
        some ⟨10220, .forward, some (60, 61)⟩ := by decide

theorem test_case_ManualBeginsRun :
    let s := readyToStart [] 1 ⟨false, false⟩ false
    let u := s.setStir .one StirUnit.initial
    s.takes .portA ∧ (manualRecord 3 511 511 1 16777215).isSome = true ∧ s.image.autoload ≠ .inFlight ∧
      (s.bowl .one).run.state = .idle ∧
      (s.bowl .one).heat.configSettle = none ∧ (s.bowl .one).stir.lid.level = .closed ∧
      (u.bowl .one).stir.lid.level = .opened ∧
      (manualRecord 0 0 0 0 1).map (fun r => (Step.ofRecord r).lidFree none none (some 600)) = some true ∧
      (manualRecord 0 0 0 0 1).map (fun r => (Step.ofRecord r).lidFree none none none) = some false := by
  unfold State.takes; decide

theorem test_case_PauseByBowlState :
    ∀ st : BowlState, (withRun { running 0 0 with state := st }).takes .portA ∧
      ((withRun { running 0 0 with state := st }).bowl .one).run.state = st :=
  fun _ => ⟨⟨rfl, rfl⟩, rfl⟩

theorem test_case_ResumeReturnsToState :
    let on := { (withRun (paused .running)) with arbiter := { Arbiter.initial with present := true } }
    let s := on.setStir .one { StirUnit.initial with lid := switchRead .closed }
    let h := s.setRun .one { paused .holding with hold := some ⟨.hot, 240, 0⟩ }
    let r := (s.bowl .one).run
    let cool := on.setHeat .one { HeatUnit.initial with temp := some 600 }
    (withRun (paused .running)).takes .portA ∧ s.takes .portA ∧ h.takes .portA ∧
      (withRun (paused .running)).arbiter.present = false ∧ s.arbiter.present = true ∧ r.state = .paused ∧
      (s.bowl .one).stir.lid.level = .closed ∧ r.resume = some .running ∧ r.endPending = false ∧
      r.step.triggersMet r.stepTimer r.extension r.flags = false ∧ (h.bowl .one).run.resume = some .holding ∧
      (h.bowl .one).run.hold = some ⟨.hot, 240, 0⟩ ∧ h.arbiter.present = true ∧ (h.bowl .one).run.state = .paused ∧
      (h.bowl .one).stir.lid.level = .closed ∧ (on.bowl .one).stir.lid.level = .opened ∧
      (on.bowl .one).stepLidFree = false ∧ (cool.bowl .one).stepLidFree = true := by unfold State.takes; decide

theorem test_case_StopForcesOutputsOff :
    ∀ st : BowlState, (withRun { running 64 0 with state := st }).takes .portA ∧
      ((withRun { running 64 0 with state := st }).bowl .one).run.state = st :=
  fun _ => ⟨⟨rfl, rfl⟩, rfl⟩

theorem test_case_SkipStepEndsStep :
    let closer := recordOfBytes ([128, 0] ++ List.replicate 20 0)
    let looped := { running 0 1 with record := some ⟨closer, none⟩, loops := [⟨0, 1, 2⟩] }
    let branch := (running 32 0).step
    let hold := { running 96 0 with record := some ⟨recordOfBytes ([0, 96] ++ List.replicate 18 0 ++ [2, 255]), none⟩ }
    let s := (readyToStart [(0, flowRecord 0), (1, flowRecord 64)] 2 ⟨true, false⟩ false).setRun .one looped
    let u := s.setRun .one (running 0 0)
    let closed (r : RunContext) := loopClose r.step r.stepIndex r.loops r.flags
    s.takes .portA ∧ (withRun (running 64 0)).takes .portA ∧ (running 64 0).step.flow = .finish ∧
      closed (running 64 0) = ([], none) ∧ looped.state = .running ∧ closed looped = ([⟨0, 1, 1⟩], some 0) ∧
      (s.fetch .one 0).isSome = true ∧ (running 0 0).step.flow = .next ∧ closed (running 0 0) = ([], none) ∧
      (u.fetch .one 1).isSome = true ∧ branch.flow = .branch .t false 0 ∧ hold.step.flow = .hold .auto 255 ∧
      hold.stepIndex = some 0 := by
  unfold State.takes; decide

theorem test_case_AnswerClosesPrompt :
    let r := { running 64 0 with prompt := some 255 }
    (withRun r).takes .portA ∧ (255 : Byte) ≠ 0 ∧ (2 : Byte).toNat ≤ 2 ∧ r.prompt = some (255 : Byte).toNat ∧
      r.state = .running ∧ r.flags.y = false ∧
      r.flags.n = false ∧ { r with state := .fault }.state ≠ .running ∧ (running 64 0).prompt = none := by
  unfold State.takes; decide

theorem test_case_AdjustSetsOverrides :
    let s := (withRun (running 64 0)).setStir .one { StirUnit.initial with lid := switchRead .closed }
    let r := (s.bowl .one).run
    s.takes .portA ∧ (withRun (paused .running)).takes .portA ∧ (paused .running).state = .paused ∧
      (paused .running).resume = some .running ∧ 256 * (1 : Byte).toNat + 255 < 512 ∧
      r.state = .running ∧ (s.bowl .one).stir.lid.level = .closed ∧
      r.step.triggersMet r.stepTimer 6000 r.flags = false := by
  unfold State.takes; decide

theorem test_case_ClearFaultEndsFault :
    let k : Capture := ⟨.overtemp, .running, .slot 7, some 0, 0, 2100, ⟨false, false, false, false⟩⟩
    let s := (withHeat { HeatUnit.initial with temp := some 1800 }).setRun .one
      { RunContext.initial with state := .fault, capture := some k }
    let u := s.setHeat .one { HeatUnit.initial with temp := some 1799 }
    s.takes .portA ∧ u.takes .portA ∧ (s.bowl .one).run.state = .fault ∧ (s.bowl .one).faultPersists = true ∧
      (u.bowl .one).run.state = .fault ∧
      (u.bowl .one).faultPersists = false := by unfold State.takes; decide

theorem test_case_TimedEventsEndSteps :
    let timed := recordOfBytes ([16, 65] ++ List.replicate 12 0 ++ [0, 0, 5] ++ List.replicate 5 0)
    let r := { running 64 0 with record := some ⟨timed, none⟩, stepTimer := 5 }
    let e := { running 64 0 with endPending := true }
    (withRun r).inReset = false ∧ r.state = .running ∧ r.step.durationInForce = some 5 ∧ r.stepTimer ≤ 5 + r.extension ∧
      r.step.triggers.time = true ∧
      r.step.all = false ∧ { r with state := .holding }.state = .holding ∧ e.state = .running ∧ e.endPending = true ∧
      (paused .running).state ≠ .running := by decide

theorem test_case_CommandsOfOneBowlLeaveTheRest :
    ownBowl (.pause xa [2]) = some .two ∧ ownBowl (.rampStep .one) = some .one ∧ (∃ t, exec (.pause xa [2]) loaded = .next t) ∧
      ∃ t, exec (.rampStep .one) loaded = .next t :=
  ⟨by decide, rfl, ⟨_, rfl⟩, _, rfl⟩

theorem test_case_TareTakesCurrentMass :
    let s := withWeigh { Channel.initial with massAvailable := true, mass := 120000, stable := true }
    let u := withWeigh Channel.initial
    s.takes .portA ∧ u.takes .portA ∧ s.image.autoload ≠ .inFlight ∧ (s.bowl .one).run.state ≠ .calibrating ∧
      (s.bowl .one).cal.values.gain ≠ 0 ∧
      (s.bowl .one).weigh.stable = true ∧ (u.bowl .one).weigh.stable = false ∧ (u.bowl .one).cal.values.gain ≠ 0 ∧
      (u.bowl .one).run.state ≠ .calibrating ∧ u.image.autoload ≠ .inFlight := by unfold State.takes; decide

theorem test_case_ConversionFormsMass :
    let s := withWeigh Channel.initial
    s.inReset = false ∧ loaded.inReset = false ∧ (s.bowl .one).run.state ≠ .calibrating ∧
      (loaded.bowl .one).run.state ≠ .calibrating ∧ (s.bowl .one).cal.values.gain ≠ 0 ∧
      (loaded.bowl .one).cal.values.gain = 0 ∧ (0x7FFFFF : BitVec 24).toInt = 8388607 ∧
      (0x800000 : BitVec 24).toInt = -8388608 ∧ (0x7FFFFE : BitVec 24).toInt = 8388606 ∧
      (0x800001 : BitVec 24).toInt = -8388607 := by decide

theorem test_case_DecisionByAddedMass :
    let a : Armed := ⟨1000, 50, .captured⟩
    let c (m : Int) := { Channel.initial with massAvailable := true, mass := m, stable := true, part := some a }
    ∀ m ∈ [949, 950, 1050, 1051], (c m).part = some a ∧ a.tare = .captured ∧ (c m).stable = true ∧
      ((c m).mReported = true ↔ (c m).decision = .inBand) ∧
      ((c m).mass - (c m).tarePoint < a.target - a.tolerance ↔ m = 949) ∧
      (a.target + a.tolerance < (c m).mass - (c m).tarePoint ↔ m = 1051) := by decide

theorem test_case_TemperatureFromTable :
    let h := { HeatUnit.initial with order := .step 1000 (some 60) none, target := some 1000, effective := some 999,
                                     rampLimit := some 50, rampRemainder := 10 }
    loaded.inReset = false ∧ (withHeat h).inReset = false ∧ HeatUnit.initial.ordered = false ∧ h.ordered = true ∧
      (loaded.bowl .one).run.state ≠ .running ∧ (96 : BitVec 12).toNat = 96 ∧ tempOfCode 3456 = some 2053 ∧
      { h with latch := true }.latch = true ∧ tempOfCode 3336 = some 1961 ∧ (3336 : BitVec 12).toNat ≤ 3936 ∧
      (1961 : Int) ≤ 2000 ∧ h.target = some 1000 ∧ h.effective = some 999 ∧ (95 : BitVec 12).toNat < 96 ∧
      3936 < (3937 : BitVec 12).toNat ∧ HeatUnit.initial.sensorOut = false ∧
      { h with sensorOut := true }.sensorOut = true ∧ (inState .fault).inReset = false := by decide

/-- A bowl RUNNING a step without heat or stir, its lid open, whose next conversion gives 69.5 °C: it was lid-free and is not any
more. -/
theorem test_case_TemperaturePausesOpenLid :
    let s := (withHeat { HeatUnit.initial with temp := some 600 }).setRun .one (running 64 0)
    let r := (s.bowl .one).run
    s.inReset = false ∧ tempOfCode (1416 : BitVec 12).toNat = some 695 ∧ 96 ≤ (1416 : BitVec 12).toNat ∧
      (1416 : BitVec 12).toNat ≤ 3936 ∧ r.state = .running ∧ (s.bowl .one).stir.lid.level = .opened ∧
      (s.bowl .one).stepLidFree = true ∧ r.step.lidFree r.offset r.speedOverride (some 695) = false := by decide

/-- R49: that conversion pauses the bowl with LID. -/
theorem test_hot_step_pauses_open_lid :
    let s := (withHeat { HeatUnit.initial with temp := some 600 }).setRun .one (running 64 0)
    let r := ((after s (.temperatureConversion .one 1416)).bowl .one).run
    r.state = .paused ∧ r.pauses = ⟨false, true, false⟩ := by decide

/-- A step with heat and the TEMP trigger, RUNNING, whose T comes with the next conversion at 98.5 °C or above. -/
theorem test_case_TemperatureEndsStep :
    let r := { running 64 0 with record := some ⟨recordOfBytes ([1, 66, 0, 200] ++ List.replicate 18 0), none⟩ }
    let h := { HeatUnit.initial with order := .step 1000 none none, target := some 1000, effective := some 1000 }
    let w := { r.flags with t := true }
    r.state = .running ∧ r.flags.t = false ∧ r.step.triggersMet r.stepTimer r.extension w = true ∧ h.stepping = true ∧
      h.tReported = false ∧ h.tDirection = .rising := by decide

theorem test_case_OverTemperatureLatchesAndFaults :
    loaded.inReset = false ∧ (loaded.bowl .one).heat.latch = false ∧ (loaded.bowl .one).run.state ≠ .fault ∧
      tempOfCode (3388 : BitVec 12).toNat = some 2001 ∧ (2000 : Int) < 2001 := by decide

theorem test_case_SettleExpiries :
    let first := { HeatUnit.initial with order := .hold 650, relayKeep := .settling, settle := some ⟨.keep, 0⟩ }
    let second := { first with relayMain := .closed, active := some .main }
    (withHeat first).inReset = false ∧ (withHeat second).inReset = false ∧ first.settle = some ⟨.keep, 0⟩ ∧
      first.active = none ∧ first.ordered = true ∧ first.pendingSwitch = none ∧
      second.active = some .main ∧ Element.main ≠ .keep ∧ second.ordered = true := by decide

theorem test_case_BowlConfigTaken :
    loaded.takes .portA ∧ stageModeOf (2 : Byte).toNat = some .keepOnly ∧ 256 * (1 : Byte).toNat + (0 : Byte).toNat ≤ 256 ∧
      1 ≤ 256 * (0 : Byte).toNat + (1 : Byte).toNat ∧ (240 : Byte).toNat ≤ 240 ∧ loaded.image.autoload ≠ .inFlight ∧
      (loaded.bowl .one).run.state = .idle ∧ (loaded.bowl .one).heat.configSettle = none ∧
      ((withHeat { HeatUnit.initial with configSettle := some 300 }).bowl .one).heat.configSettle.isSome = true := by
  unfold State.takes; decide

theorem test_case_RegulationAndRescale :
    let h := { HeatUnit.initial with temp := some 0, effective := some 1800, settle := some ⟨.keep, 0⟩, active := some .main }
    h.temp = some 0 ∧ h.effective = some 1800 ∧ h.settle = some ⟨.keep, 0⟩ ∧ h.active = some .main ∧
      { h with active := none }.active = none := by decide

theorem test_case_TachoMeasuresAndDisturbs :
    let s := (withStir { StirUnit.initial with standstill := .notReached }).setWeigh .one
      { Channel.initial with seen := ⟨20, 0⟩ }
    s.inReset = false ∧ (s.bowl .one).stir.standstill = .notReached ∧
      (s.bowl .one).weigh.seen = (PerBowl.mk 0 0).set .one ((s.bowl .one).weigh.seen.get .one) ∧
      0 < (s.bowl .one).weigh.seen.get .one ∧ min (0 * 20) 12000 = 0 ∧ 0 < min (1 * 20) 12000 := by decide

theorem test_case_MotorTimersMoveSetpointAndDirection :
    let u := { StirUnit.initial with target := 1190, setpoint := 1180 }
    let w := { StirUnit.initial with standstill := .timing 1, pendingDir := some .reverse, reversalHold := true }
    (withStir u).inReset = false ∧ (withStir w).inReset = false ∧ { u with setpoint := 1190 }.reversalDone = false ∧
      { u with setpoint := 1190 }.releaseTest = false ∧
      w.standstill = .timing 1 ∧ w.setpoint = 0 ∧ w.pendingDir = some .reverse ∧
      { u with order := .stir 60 .forward (some (5, 300)) }.order = .stir 60 .forward (some (5, 300)) ∧
      { u with order := .stir 60 .forward none }.order = .stir 60 .forward none := by decide

theorem test_case_StallAndLockTimeoutsFault :
    let s := withStir { StirUnit.initial with stall := some 0, lock := .engaging, lockTimer := some 0 }
    s.inReset = false ∧ (s.bowl .one).run.state ≠ .fault ∧ (s.bowl .one).stir.stall.isSome = true ∧
      (s.bowl .one).stir.lock = .engaging ∧ (s.bowl .one).stir.lockTimer.isSome = true := by decide

theorem test_case_SwitchInputsFiltered :
    loaded.inReset = false ∧ (loaded.bowl .one).stir.lid.firstRead = false ∧
      (loaded.bowl .one).stir.confirm.firstRead = false := by decide

theorem test_case_LidOpeningStopsMotor :
    let closed := { StirUnit.initial with lid := switchRead .closed }
    let s := (withStir closed).setRun .one (running 64 0)
    s.inReset = false ∧ loaded.inReset = false ∧ (s.bowl .one).stir.lid.level = .closed ∧
      (s.bowl .one).stir.lock ≠ .confirmed ∧ (s.bowl .one).run.state = .running ∧
      (s.bowl .one).stepLidFree = false ∧ { closed with lock := .confirmed }.lock = .confirmed ∧
      (s.bowl .one).run.state ≠ .fault ∧ (loaded.bowl .one).stir.lid.level = .opened := by decide

theorem test_case_ConfirmSwitchMovesLock :
    let e := { StirUnit.initial with lock := .engaging, lockTimer := some 1 }
    let c := { StirUnit.initial with lock := .confirmed, confirm := switchRead .closed }
    (withStir e).inReset = false ∧ (withStir c).inReset = false ∧ e.lock = .engaging ∧ e.confirm.level = .opened ∧
      c.lock = .confirmed ∧ c.confirm.level = .closed ∧
      StirUnit.initial.lock = .released ∧ SwitchLevel.closed ≠ StirUnit.initial.confirm.level := by decide

theorem test_case_PowerBudget :
    (900 + 900 ≤ 1800 ∧ 1800 < 900 + 901 ∧ 900 ≤ 901 ∧ 1800 < 901 + 900 ∧ 900 < 901) ∧
      (∀ g ∈ [0, 299, 300, 499, 500, 899, 900, 1599], g < motorDemand 9600) ∧ motorDemand 6000 ≤ 900 ∧
      (motorGrants 1000 1600 500).one < 1600 := by decide

theorem test_case_ZeroCrossAdvancesWindow :
    let s (p : Option Nat) := withArbiter { Arbiter.initial with present := true, position := p }
    let onMain := { HeatUnit.initial with
      order := .step 1000 none none, target := some 1000, effective := some 1000, active := some .main
      relayMain := .closed, posted := 4, lowCount := 9 }
    let onKeep := { onMain with active := some .keep, relayKeep := .closed, posted := 20, highCount := 4 }
    (s none).arbiter.present = true ∧ (s (some 18)).arbiter.position = some 18 ∧ (18 ≠ 19) ∧
      (s (some 19)).arbiter.position = some 19 ∧ (s none).arbiter.position = none ∧ (s none).inReset = false ∧
      CalValues.defaults.mode = .auto ∧ onMain.stepping = true ∧ onMain.settle = none ∧ onMain.active = some .main ∧
      onMain.rampComplete = true ∧ onKeep.active = some .keep ∧ HeatUnit.initial.active = none := by decide

/-- R131, R136, R137: under a cap of 50 a MAIN demand of 20 gets 7 half-cycles of 140, B is set and BUDGET_SHORT noticed; bowl 2
keeps its B clear. -/
theorem test_short_window :
    let s := withHeat { HeatUnit.initial with
      order := .hold 800, target := some 800, effective := some 800, active := some .main, relayMain := .closed, posted := 20 }
    let t := after { s with arbiter := { Arbiter.initial with present := true, cap := 50 } } (.zeroCrossArrival 10000)
    (t.bowl .one).heat.grant = 7 ∧ (t.bowl .one).run.flags.b = true ∧ (t.bowl .two).run.flags.b = false ∧
      (t.notices.get .portB).flags.getLsbD 12 = true ∧ t.arbiter.pointer = .two := by decide

theorem test_case_RestorationCount :
    let a (n : Nat) := { Arbiter.initial with restoration := n, sinceCross := some 0 }
    (a 9).present = false ∧ (a 9).countAfter 7000 = 10 ∧ (a 9).countAfter 12000 = 10 ∧ (a 9).countAfter 6999 = 1 ∧
      (a 9).countAfter 12001 = 1 ∧ (a 0).countAfter 7000 = 1 := by decide

theorem test_case_GapExpiryIsMainsLoss :
    let a := { Arbiter.initial with gap := some 0 }
    a.gap = some 0 ∧ a.present = false ∧ { a with present := true }.present = true ∧ (withArbiter a).inReset = false ∧
      a.overtaken = false ∧ { a with overtaken := true, gap := some 25 }.overtaken = true := by
  decide

/-- R124: the arrival is taken first, so the expiry that waited makes no loss; the next expiry is loss, and so is an expiry with
no arrival before it. -/
theorem test_arrival_before_expiry :
    let s := withArbiter { Arbiter.initial with present := true, position := some 5, gap := some 0 }
    let t := after (after s (.zeroCrossArrival 25000)) .gapTimerExpiry
    t.arbiter.present = true ∧ t.arbiter.gap = some 25 ∧ t.arbiter.position = some 6 ∧
      (after t .gapTimerExpiry).arbiter.present = false ∧ (after s .gapTimerExpiry).arbiter.present = false := by decide

theorem test_case_CapAndModeBecomePending :
    loaded.takes .portA ∧ State.reset.takes .portA ∧ 50 ≤ loaded.arbiter.rating ∧
      State.reset.image.autoload = .inFlight ∧ loaded.image.autoload ≠ .inFlight ∧
      2 ≤ (2 : Byte).toNat ∧ 50 ≤ State.reset.arbiter.rating := by unfold State.takes; decide

set_option maxRecDepth 20000 in
/-- An image built from the defaults, and one with its first byte changed. -/
theorem test_case_AutoloadOutcomes :
    let im := buildImage .defaults .defaults 360 200 .fit
    State.reset.inReset = false ∧ State.reset.image.autoload = .inFlight ∧ imageGood im = true ∧
      imageGood (im.set 0 0) = false := by decide

theorem test_case_SavedImageReadsBack :
    let v := CalValues.defaults
    let s := (inState .calibrating).setCal .one
      { BowlCal.initial with context := some ⟨.zero, .sweep 3, 0, none, 255, -8388608, 16777215⟩ }
    v.trim < 256 ∧ -8388608 ≤ v.zero ∧ v.zero ≤ 8388607 ∧ v.gain < 16777216 ∧ 1 ≤ v.k ∧ v.k ≤ 256 ∧ 1 ≤ v.band ∧
      v.band ≤ 255 ∧ v.kp < 256 ∧ v.ki < 256 ∧ 10 ≤ v.mainRating ∧ v.mainRating ≤ 200 ∧ 10 ≤ v.keepRating ∧
      v.keepRating ≤ 200 ∧
      (s.bowl .one).cal.context = some ⟨.zero, .sweep 3, 0, none, 255, -8388608, 16777215⟩ ∧
      (s.bowl .two).cal.context = none ∧ 50 ≤ s.arbiter.rating ∧ s.arbiter.rating ≤ 360 ∧ s.arbiter.cap < 65536 := by decide

theorem test_case_CalibrationsBegin :
    loaded.takes .portA ∧ loaded.image.autoload ≠ .inFlight ∧ (loaded.bowl .one).run.state = .idle ∧
      (loaded.bowl .one).heat.configSettle = none ∧
      100 ≤ 256 * (0 : Byte).toNat + (100 : Byte).toNat ∧ 256 * (195 : Byte).toNat + (80 : Byte).toNat ≤ 50000 ∧
      (loaded.bowl .one).cal.zeroValid = false ∧ { BowlCal.initial with zeroValid := true }.zeroValid = true := by
  unfold State.takes; decide

theorem test_case_SweepAndCaptureFollowTheirRules :
    let s := (inState .calibrating).setCal .one
      { BowlCal.initial with context := some ⟨.zero, .sweep 255, 2, none, 128, 0, 0⟩ }
    s.inReset = false ∧ (s.bowl .one).run.state = .calibrating ∧
      (s.bowl .one).cal.context = some ⟨.zero, .sweep 255, 2, none, 128, 0, 0⟩ ∧ (0 : BitVec 24).toInt = 0 ∧
      (0x7FFFFF : BitVec 24).toInt = 8388607 ∧ (0xFFFFFF : BitVec 24).toInt < 0 ∧ isOverload 8388606 = false ∧
      roundConv (320000 * 1) 32 - 0 = 10000 ∧ roundConv 319968 32 - 0 = 9999 := by decide

theorem test_case_AbortEndsCalibration :
    let s := (inState .calibrating).setCal .one
      { BowlCal.initial with context := some ⟨.span 100, .capture 4 0, 31, none, 128, 0, 0⟩ }
    s.takes .portA ∧ loaded.takes .portA ∧ (s.bowl .one).run.state = .calibrating ∧
      (s.bowl .one).cal.context.isSome = true ∧
      (loaded.bowl .one).run.state ≠ .calibrating := by unfold State.takes; decide

theorem test_case_SaveWritesEightPages :
    let job (n : Nat) : SaveJob := ⟨Vector.replicate 128 0, n, 1⟩
    loaded.takes .portA ∧ State.reset.takes .portA ∧ (job 6).page < 7 ∧ (job 7).page = 7 ∧ loaded.image.save = none ∧
      loaded.image.autoload ≠ .inFlight ∧
      State.reset.image.autoload = .inFlight ∧ State.reset.inReset = false := by unfold State.takes; decide

theorem test_case_NoticesByPort :
    loaded.takes .portA ∧ 128 ≤ (128 : Byte).toNat ∧ (127 : Byte).toNat < 128 ∧ 14 < (15 : Byte).toNat ∧
      (14 : Byte).toNat ≤ 14 ∧
      1 < (2 : Byte).toNat ∧ (1 : Byte).toNat ≤ 1 ∧ 3 < (4 : Byte).toNat ∧ (3 : Byte).toNat ≤ 3 := by
  unfold State.takes; decide

theorem test_case_ConvergentRounding :
    0 < 2 ∧ (2 * (roundConv 5 2 * 2 - 5) = -2) ∧ roundConv 5 2 % 2 = 0 ∧ (2 * (roundConv 3 2 * 2 - 3) = 2) := by decide

/-- A motor at full speed behind a confirmed lock. -/
def fullSpeed : State :=
  withStir { StirUnit.initial with lid := switchRead .closed, lock := .confirmed, target := 9600, setpoint := 9600 }

theorem test_case_MotorsSafe : fullSpeed.MotorsSafe ∧ ∃ t, step fullSpeed = .next t :=
  ⟨by unfold State.MotorsSafe StirUnit.Safe; decide, _, rfl⟩

/-- A latched bowl. -/
def latched : State := (withHeat { HeatUnit.initial with latch := true }).setRun .one { RunContext.initial with state := .fault }

theorem test_case_LatchesHeld : latched.LatchesHeld ∧ ∃ t, step latched = .next t :=
  ⟨by unfold State.LatchesHeld Bowl.LatchHeld; decide, _, rfl⟩

/-- Bowl 1 running the recipe of slot 7, whose extent is the upper half of step memory. -/
def running7 : State :=
  (withRun (running 0 0)).setStore
    { slotSeven (.ready 1 128 128 ⟨true, false⟩ false) with mem := [(128, flowRecord 0), (255, flowRecord 64)], free := [⟨0, 128⟩] }

theorem test_case_StoreSound : running7.store.Sound ∧ ∃ t, step running7 = .next t := by
  refine ⟨⟨fun a => ?_, by decide, by decide, fun slot n h => ?_, by decide⟩, _, rfl⟩
  · have h : running7.store.coverCount a =
        ([⟨0, 128⟩] : List Extent).countP (fun e => e.covers a) +
          [Entry.free, .free, .free, .free, .free, .free, .free, .ready 1 128 128 ⟨true, false⟩ false].countP
            (fun e => e.covers a) := rfl
    rw [h]
    simp only [List.countP_cons, List.countP_nil, Entry.covers, Extent.covers, Bool.and_eq_true, decide_eq_true_eq,
      Bool.false_eq_true, if_false]
    split <;> split <;> split <;> omega
  · have hn : slot < 8 := by
      by_contra hn
      have hl : running7.store.table.toList.length ≤ slot := by simpa using hn
      simp [Store.entry, List.getD_eq_getElem?_getD, List.getElem?_eq_none hl, Entry.steps] at h
    have all : ∀ slot < 8, ((running7.store.entry slot).steps = none ∨ (running7.store.entry slot).steps = some 128) := by decide
    rcases all slot hn with e | e <;> rw [e] at h <;> simp at h; omega

theorem test_case_UsersMatch : running7.UsersMatch ∧ ∃ t, step running7 = .next t := by
  refine ⟨⟨fun b n => ?_, fun b h => ?_⟩, _, rfl⟩
  · by_cases hn : n < 8
    · interval_cases n <;> cases b <;> decide
    · have h : running7.store.entry n = .free := by
        have hl : running7.store.table.toList.length ≤ n := by simpa using hn
        simp only [Store.entry, List.getD_eq_getElem?_getD, List.getElem?_eq_none hl, Option.getD_none]
      rw [h]
      cases b
      · have hr : (running7.bowl .one).run.source = .slot 7 := rfl
        simp only [hr, Entry.usedBy, RunSource.slot.injEq, Bool.false_eq_true, iff_false]; omega
      · have hr : (running7.bowl .two).run.source = .noRun := rfl
        simp [hr, Entry.usedBy]
  · cases b
    · revert h; decide
    · rfl

end Sys2Proof.Tests
end

/-! The manual's rounding (R1): the three cases of `roundConv` by the remainder, the error of each, and O55. -/

namespace Sys2Proof.Machine

open Sys2Proof

/-- What `roundConv` answers, by the remainder's place against half the divisor: below it the floor, above it the
integer after the floor, at it the even one of the two. -/
theorem roundConv_cases (a : Int) (b : Nat) :
    (2 * (a % b) < b ∧ roundConv a b = a / b) ∨
    ((b : Int) < 2 * (a % b) ∧ roundConv a b = a / b + 1) ∨
    (2 * (a % b) = b ∧ roundConv a b % 2 = 0 ∧ (roundConv a b = a / b ∨ roundConv a b = a / b + 1)) := by
  rcases lt_trichotomy (2 * (a % (b : Int))) b with below | half | above
  · exact .inl ⟨below, by simp [roundConv, below]⟩
  · refine .inr (.inr ⟨half, ?_⟩)
    rcases Int.emod_two_eq_zero_or_one (a / (b : Int)) with even | odd
    · have down : roundConv a b = a / b := by simp [roundConv, half, even]
      exact ⟨down ▸ even, .inl down⟩
    · have up : roundConv a b = a / b + 1 := by simp [roundConv, half, odd]
      exact ⟨by omega, .inr up⟩
  · exact .inr (.inl ⟨above, by simp [roundConv, above, above.not_gt]⟩)

/-- Rounding down errs by the remainder. -/
theorem ediv_mul_sub (a b : Int) : a / b * b - a = -(a % b) := by
  linarith [Int.ediv_mul_add_emod a b]

/-- Rounding up errs by what the remainder lacks of the divisor. -/
theorem ediv_add_one_mul_sub (a b : Int) : (a / b + 1) * b - a = b - a % b := by
  linarith [Int.ediv_mul_add_emod a b]

/-- `roundConv` is a nearest integer: twice its error is at most the divisor on either side. -/
theorem roundConv_nearest (a : Int) {b : Nat} (hb : 0 < b) :
    2 * (roundConv a b * b - a) ≤ b ∧ -(b : Int) ≤ 2 * (roundConv a b * b - a) := by
  have nonneg : 0 ≤ a % (b : Int) := Int.emod_nonneg a (by omega)
  have lt : a % (b : Int) < b := Int.emod_lt_of_pos a (by omega)
  rcases roundConv_cases a b with ⟨below, down⟩ | ⟨above, up⟩ | ⟨half, -, down | up⟩
  · rw [down, ediv_mul_sub]; omega
  · rw [up, ediv_add_one_mul_sub]; omega
  · rw [down, ediv_mul_sub]; omega
  · rw [up, ediv_add_one_mul_sub]; omega

/-- Of two integers equally near, `roundConv` is the even one: an error of half the divisor arises in the halfway case
only. -/
theorem roundConv_even_of_halfway (a : Int) {b : Nat} (hb : 0 < b)
    (tie : 2 * (roundConv a b * b - a) = b ∨ 2 * (roundConv a b * b - a) = -(b : Int)) : roundConv a b % 2 = 0 := by
  have nonneg : 0 ≤ a % (b : Int) := Int.emod_nonneg a (by omega)
  have lt : a % (b : Int) < b := Int.emod_lt_of_pos a (by omega)
  rcases roundConv_cases a b with ⟨below, down⟩ | ⟨above, up⟩ | ⟨-, even, -⟩
  · rw [down, ediv_mul_sub] at tie; omega
  · rw [up, ediv_add_one_mul_sub] at tie; omega
  · exact even

/-- Settles O55: the four examples of R1 are evaluated, and a floor division is the library's `Int` division. -/
theorem convergentRounding : Obligations.ConvergentRounding := by
  refine ⟨fun a b hb => ?_, by decide, by decide, by decide, by decide, fun a b hb => ?_⟩
  · obtain ⟨upper, lower⟩ := roundConv_nearest a hb
    exact ⟨upper, lower, roundConv_even_of_halfway a hb⟩
  · have pos : (0 : Int) < b := by omega
    exact ⟨Int.ediv_mul_le a pos.ne', Int.lt_ediv_add_one_mul_self a pos⟩

end Sys2Proof.Machine

namespace Sys2Proof.Machine

open Sys2Proof

/-! ## What a command is: a request, raw bytes, an event, or a change of power or reset -/

/-- The effect of an event from the appliance or from one of the part's timers, outside reset; none for a transfer, and for
power-on and the RESET pin. -/
def eventOf (i : Instr) : Option (State → State) :=
  match i with
  | .autoloadComplete r => some fun s => s.endAutoload r
  | .loadCellConversion b sample => some fun s => s.loadCell b sample.toInt
  | .holdOffExpiry b => some fun s => s.setWeigh b (s.bowl b).weigh.holdOffExpiry
  | .temperatureConversion b code => some fun s => s.temperature b code.toNat
  | .relaySettleExpiry b => some fun s => s.setHeat b ((s.bowl b).heat.settleExpiry (s.bowl b).cal.values)
  | .configSettleExpiry b => some fun s => s.setHeat b { (s.bowl b).heat with configSettle := none }
  | .tachoMeasurement b pulses => some fun s => s.tacho b pulses
  | .standstillTimerExpiry b => some fun s => s.putStir b (s.bowl b).stir.standstillExpiry
  | .stallTimerExpiry b => some fun s => s.stallExpiry b
  | .lockTimerExpiry b => some fun s => s.lockExpiry b
  | .rampStep b => some fun s => s.putStir b (s.bowl b).stir.rampStep
  | .intervalPhaseChange b => some fun s => s.putStir b (s.bowl b).stir.phaseChange
  | .switchLevelChange b sw level =>
    some fun s => s.setStir b ((s.bowl b).stir.setSwitch sw (((s.bowl b).stir.switch sw).levelChange level))
  | .lidChange b level => some fun s => s.lidChange b level
  | .confirmSwitchChange b level => some fun s => s.confirmChange b level
  | .switchFirstReading b sw level =>
    some fun s => s.setStir b ((s.bowl b).stir.setSwitch sw (((s.bowl b).stir.switch sw).firstReading level))
  | .zeroCrossArrival since => some fun s => s.zeroCross since
  | .gapTimerExpiry => some State.gapExpiry
  | .timeExpiry b => some fun s => s.timeExpiry b
  | .holdLimitExpiry b => some fun s => s.holdExpiry b
  | .endPendingCompletion b => some fun s => s.endCompletion b
  | .eepromPageWriteDone acked => some fun s => s.pageDone acked
  | .eepromPageTimeout => some State.pageTimeout
  | .portReady p => some fun s => s.setPort p { s.ports.get p with ready := true }
  | _ => none

/-- What a command means, by its kind: a request of the table is taken for its owner, raw bytes go through the frame checks, an
event has its effect, and power-on and the RESET pin put the part at its starting values. -/
inductive Meaning (i : Instr) : Prop
  | request (code : Byte) (x : Xfer) (params : List Byte) (owner : State → Reply)
      (parts : i.requestParts = some (code, x, params)) (owned : ownerOf code.toNat x.port params = some owner)
      (exec_eq : ∀ s, exec i s = takeRequest code x params owner s)
  | raw (p : PortId) (bytes : List Byte) (exec_eq : ∀ s, exec i s = whileReleased (fun s => s.transfer p bytes (takeFrame p)) s)
  | empty (p : PortId)
      (exec_eq : ∀ s, exec i s = whileReleased (fun s => s.transfer p [] (fun _ _ s => (s, .noneResponse))) s)
  | event (f : State → State) (effect : eventOf i = some f) (exec_eq : ∀ s, exec i s = whileReleased f s)
  | restart (inReset : Bool) (named : i = .powerOn ∨ i = .resetPinAssert)
      (exec_eq : ∀ s, exec i s = .next (s.restart inReset))
  | release (named : i = .resetPinRelease)
      (exec_eq : ∀ s, exec i s = .next (if s.inReset then s.restart false else s))

/-- Every command has one of these meanings. -/
theorem meaning (i : Instr) : Meaning i := by
  cases i with
  | nop x ps | getStatus x ps | readPage x ps | getNotices x ps | ackNotice x ps | setNotice x ps | setThreshold x ps
  | resetPort x ps | openRecipe x ps | writeStep x ps | sealRecipe x ps | discardRecipe x ps | unloadRecipe x ps
  | listRecipes x ps | start x ps | manual x ps | pause x ps | resume x ps | stop x ps | skipStep x ps | answer x ps
  | adjust x ps | tare x ps | clearFault x ps | setBowlConfig x ps | calibrateZero x ps | calibrateSpan x ps
  | abortCalibration x ps | saveCalibration x ps | setPowerCap x ps | setArbitration x ps =>
    exact .request _ x ps _ rfl rfl fun _ => rfl
  | badFrame p bytes => exact .raw p bytes fun _ => rfl
  | unknownRequest x code ps => exact .raw x.port _ fun _ => rfl
  | emptyTransfer p bits => exact .empty p fun _ => rfl
  | powerOn => exact .restart false (.inl rfl) fun _ => rfl
  | resetPinAssert => exact .restart true (.inr rfl) fun _ => rfl
  | resetPinRelease => exact .release rfl fun _ => rfl
  | autoloadComplete | loadCellConversion | holdOffExpiry | temperatureConversion | relaySettleExpiry | configSettleExpiry
  | tachoMeasurement | standstillTimerExpiry | stallTimerExpiry | lockTimerExpiry | rampStep | intervalPhaseChange
  | switchLevelChange | lidChange | confirmSwitchChange | switchFirstReading | zeroCrossArrival | gapTimerExpiry | timeExpiry
  | holdLimitExpiry | endPendingCompletion | eepromPageWriteDone | eepromPageTimeout | portReady =>
    exact .event _ rfl fun _ => rfl

/-- A command other than power-on and the changes of the RESET pin has no effect in reset. -/
theorem exec_held {i : Instr} {s : State} (hr : s.inReset = true) (h1 : i ≠ .powerOn) (h2 : i ≠ .resetPinAssert)
    (h3 : i ≠ .resetPinRelease) : exec i s = .next s := by
  cases meaning i with
  | request code x params owner parts owned exec_eq => rw [exec_eq, takeRequest, whileReleased_held _ _ hr]
  | raw p bytes exec_eq => rw [exec_eq, whileReleased_held _ _ hr]
  | empty p exec_eq => rw [exec_eq, whileReleased_held _ _ hr]
  | event f effect exec_eq => rw [exec_eq, whileReleased_held _ _ hr]
  | restart inReset named exec_eq => exact absurd named (not_or.mpr ⟨h1, h2⟩)
  | release named exec_eq => exact absurd named h3

theorem exec_resetPinRelease (s : State) :
    exec .resetPinRelease s = .next (if s.inReset then s.restart false else s) := rfl

/-- Settles O3: the restarts are the model's own equations, and every other meaning is guarded by the RESET pin. -/
theorem powerAndResetRestartAndHold : Obligations.PowerAndResetRestartAndHold := by
  refine ⟨fun s => ⟨rfl, rfl, fun asserted => ?_, fun released => ?_⟩, fun _ _ hr h1 h2 h3 => exec_held hr h1 h2 h3⟩
  · exact (exec_resetPinRelease s).trans (congrArg _ (if_pos asserted))
  · exact (exec_resetPinRelease s).trans (congrArg _ (if_neg (by simp [released])))

/-! ## What a transfer leaves -/

/-- A transfer is ignored, or is empty and only its port changes, or its bytes are taken and its port then changes. -/
theorem State.transfer_cases (s : State) (p : PortId) (bytes : List Byte)
    (take : List Byte → Nat → State → State × Response) :
    s.transfer p bytes take = s ∨ (∃ q, s.transfer p bytes take = s.setPort p q) ∨
      ∃ rx n q, s.transfer p bytes take = (take rx n s).1.setPort p q := by
  simp only [State.transfer]
  split
  · split
    · exact .inr (.inl ⟨_, rfl⟩)
    · exact .inr (.inr ⟨_, _, _, rfl⟩)
  · exact .inl rfl

/-- A request leaves everything, or its owner's state with the request's port changed. -/
theorem takeRequest_cases {code : Byte} {x : Xfer} {params : List Byte} {owner : State → Reply} {s t : State}
    (h : takeRequest code x params owner s = .next t) : t = s ∨ ∃ q, t = (owner s).state.setPort x.port q := by
  simp only [takeRequest, whileReleased, Host.Outcome.next.injEq] at h
  subst h
  split
  · exact .inl rfl
  · rcases hready : (s.ports.get x.port).ready with _ | _
    · exact .inl (State.transfer_early _ _ _ _ hready)
    · exact .inr ⟨_, State.transfer_eq _ _ _ _ hready (requestFrame_ne_nil _ _ _ _)⟩

/-- Bytes taken at a release change nothing, or are answered by the owner of a code. -/
theorem takeFrame_cases (port : PortId) (rx : List Byte) (count : Nat) (s : State) :
    (takeFrame port rx count s).1 = s ∨
      ∃ code params owner, ownerOf code port params = some owner ∧ (takeFrame port rx count s).1 = (owner s).state := by
  unfold takeFrame
  split
  · exact .inl rfl
  · split
    · exact .inl rfl
    · rename_i howner
      exact .inr ⟨_, _, _, howner, rfl⟩

/-! ## What every step keeps -/

/-- A property that each of the ways in which a step changes the state keeps: a port's change, a restart, an owner's answer, an
event, the rest of the queue, and a millisecond of the part's clock. -/
structure KeptByParts (P : State → Prop) : Prop where
  port : ∀ s p q, P s → P (s.setPort p q)
  restart : ∀ (s : State) r, P s → P (s.restart r)
  owner : ∀ {code port params owner} (s : State), ownerOf code port params = some owner → P s → P (owner s).state
  event : ∀ {i f} (s : State), eventOf i = some f → P s → P (f s)
  queue : ∀ (s : State) l, P s → P { s with pending := l }
  tick : ∀ s : State, P s → P s.tick

variable {P : State → Prop}

/-- A transfer keeps what its taking keeps. -/
theorem KeptByParts.transfer (k : KeptByParts P) {s : State} {p : PortId} {bytes : List Byte}
    {take : List Byte → Nat → State → State × Response} (ht : ∀ rx n, P (take rx n s).1) (hs : P s) :
    P (s.transfer p bytes take) := by
  rcases s.transfer_cases p bytes take with h | ⟨q, h⟩ | ⟨rx, n, q, h⟩ <;> rw [h]
  · exact hs
  · exact k.port _ _ _ hs
  · exact k.port _ _ _ (ht rx n)

/-- An event keeps, in reset or not, what its effect keeps. -/
theorem keeps_of_whileReleased {f : State → State} {s t : State} (hf : P (f s)) (hs : P s)
    (h : whileReleased f s = .next t) : P t := by
  simp only [whileReleased, Host.Outcome.next.injEq] at h
  subst h
  split
  · exact hs
  · exact hf

/-- Every command keeps it. -/
theorem KeptByParts.exec (k : KeptByParts P) {i : Instr} {s t : State} (hs : P s) (h : exec i s = .next t) : P t := by
  cases meaning i with
  | request code x params owner parts owned exec_eq =>
    rw [exec_eq] at h
    rcases takeRequest_cases h with rfl | ⟨q, rfl⟩
    · exact hs
    · exact k.port _ _ _ (k.owner s owned hs)
  | raw p bytes exec_eq =>
    rw [exec_eq] at h
    refine keeps_of_whileReleased (k.transfer (fun rx n => ?_) hs) hs h
    rcases takeFrame_cases p rx n s with ht | ⟨code, params, owner, howner, ht⟩ <;> rw [ht]
    · exact hs
    · exact k.owner s howner hs
  | empty p exec_eq =>
    rw [exec_eq] at h
    refine keeps_of_whileReleased ?_ hs h
    exact k.transfer (fun _ _ => hs) hs
  | event f effect exec_eq =>
    rw [exec_eq] at h
    exact keeps_of_whileReleased (k.event s effect hs) hs h
  | restart inReset named exec_eq =>
    rw [exec_eq, Host.Outcome.next.injEq] at h
    exact h ▸ k.restart s inReset hs
  | release named exec_eq =>
    rw [exec_eq, Host.Outcome.next.injEq] at h
    subst h
    split
    · exact k.restart s false hs
    · exact hs

/-- Every step keeps it: the command at the front of the queue, or the millisecond that passes where none waits. -/
theorem KeptByParts.step (k : KeptByParts P) {s t : State} (hs : P s) (h : step s = .next t) : P t := by
  unfold Machine.step at h
  split at h
  · exact k.exec (k.queue s _ hs) h
  · rw [Host.Outcome.next.injEq] at h
    exact h ▸ k.tick s hs

end Sys2Proof.Machine

namespace Sys2Proof.Machine

open Sys2Proof

/-! ## First-fit allocation and the return of extents (R9, R10) -/

/-- First-fit finds nothing exactly where every free extent is too short. -/
theorem firstFit_eq_none {free : List Extent} {n : Nat} (h : firstFit free n = none) : ∀ e ∈ free, e.length < n := by
  induction free with
  | nil => simp
  | cons e rest ih =>
    simp only [firstFit] at h
    split at h
    · cases h
    · split at h
      · cases h
      · simp only [Option.map_eq_none_iff] at h
        simp only [List.mem_cons, forall_eq_or_imp]
        exact ⟨by omega, ih h⟩

/-- First-fit takes the front of the first extent long enough, and leaves the list around it. -/
theorem firstFit_eq_some {free rest : List Extent} {n start : Nat} (h : firstFit free n = some (start, rest)) :
    ∃ pre e post, free = pre ++ e :: post ∧ (∀ f ∈ pre, f.length < n) ∧ n ≤ e.length ∧ start = e.start ∧
      rest = pre ++ (if e.length = n then post else ⟨e.start + n, e.length - n⟩ :: post) := by
  induction free generalizing rest with
  | nil => cases h
  | cons e tail ih =>
    simp only [firstFit] at h
    split at h
    · rename_i hlen
      cases h
      exact ⟨[], e, tail, by simp [hlen]⟩
    · split at h
      · rename_i hne hlt
        cases h
        exact ⟨[], e, tail, by simp [hne, hlt.le]⟩
      · simp only [Option.map_eq_some_iff, Prod.mk.injEq] at h
        obtain ⟨⟨start', rest'⟩, htail, rfl, rfl⟩ := h
        obtain ⟨pre, f, post, rfl, hpre, hf, hstart, hrest⟩ := ih htail
        exact ⟨e :: pre, f, post, rfl, by simpa using ⟨by omega, hpre⟩, hf, hstart, by simp [hrest]⟩

/-- How many extents of a list cover a step address. -/
def coverOf (free : List Extent) (a : Nat) : Nat := free.countP (fun e => e.covers a)

@[simp] theorem coverOf_nil (a : Nat) : coverOf [] a = 0 := rfl

@[simp] theorem coverOf_cons (e : Extent) (rest : List Extent) (a : Nat) :
    coverOf (e :: rest) a = coverOf rest a + (e.covers a).toNat := by
  cases h : e.covers a <;> simp [coverOf, h]

@[simp] theorem coverOf_append (xs ys : List Extent) (a : Nat) : coverOf (xs ++ ys) a = coverOf xs a + coverOf ys a :=
  List.countP_append

theorem Extent.covers_iff (e : Extent) (a : Nat) : e.covers a = true ↔ e.start ≤ a ∧ a < e.start + e.length := by
  simp [Extent.covers]

/-- A free-extent list in order: ascending, no two entries overlapping or adjacent, none empty (R8). -/
def InOrder (free : List Extent) : Prop :=
  free.Pairwise (fun e f => e.start + e.length < f.start) ∧ ∀ e ∈ free, 0 < e.length

theorem inOrder_cons {e : Extent} {rest : List Extent} :
    InOrder (e :: rest) ↔ (∀ f ∈ rest, e.start + e.length < f.start) ∧ 0 < e.length ∧ InOrder rest := by
  simp only [InOrder, List.pairwise_cons, List.mem_cons, forall_eq_or_imp]
  tauto

/-- A list in order stays so without some of its extents. -/
theorem InOrder.sublist {free rest : List Extent} (h : InOrder free) (hs : rest.Sublist free) : InOrder rest :=
  ⟨h.1.sublist hs, fun e he => h.2 e (hs.subset he)⟩

/-- A list in order stays so when one extent loses some of its front. -/
theorem InOrder.shorten {pre post : List Extent} {e : Extent} {n : Nat} (h : InOrder (pre ++ e :: post))
    (hn : n < e.length) : InOrder (pre ++ ⟨e.start + n, e.length - n⟩ :: post) := by
  induction pre with
  | nil =>
    obtain ⟨hpost, -, hrest⟩ := inOrder_cons.mp h
    refine inOrder_cons.mpr ⟨fun f hf => ?_, by dsimp only; omega, hrest⟩
    have := hpost f hf
    dsimp only
    omega
  | cons f pre ih =>
    rw [List.cons_append] at h ⊢
    obtain ⟨hf, hlen, hrest⟩ := inOrder_cons.mp h
    refine inOrder_cons.mpr ⟨fun g hg => ?_, hlen, ih hrest⟩
    simp only [List.mem_append, List.mem_cons] at hf hg
    rcases hg with hg | rfl | hg
    · exact hf g (.inl hg)
    · have := hf e (.inr (.inl rfl))
      dsimp only
      omega
    · exact hf g (.inr (.inr hg))

/-- What an allocation gives and what it leaves cover together what the list covered. -/
theorem coverOf_firstFit {free rest : List Extent} {n start : Nat} (h : firstFit free n = some (start, rest)) (a : Nat) :
    coverOf rest a + (Extent.covers ⟨start, n⟩ a).toNat = coverOf free a := by
  obtain ⟨pre, ⟨start, len⟩, post, rfl, -, hle, rfl, rfl⟩ := firstFit_eq_some h
  split
  · rename_i hlen
    subst hlen
    simp only [coverOf_append, coverOf_cons]
    omega
  · have hsplit : (Extent.covers ⟨start, n⟩ a).toNat + (Extent.covers ⟨start + n, len - n⟩ a).toNat =
        (Extent.covers ⟨start, len⟩ a).toNat := by
      simp only [Extent.covers, Bool.toNat, ← Bool.decide_and]
      grind
    simp only [coverOf_append, coverOf_cons]
    omega

/-- An allocation leaves the list in order. -/
theorem inOrder_firstFit {free rest : List Extent} {n start : Nat} (h : firstFit free n = some (start, rest))
    (ho : InOrder free) : InOrder rest := by
  obtain ⟨pre, e, post, rfl, -, hle, rfl, rfl⟩ := firstFit_eq_some h
  split
  · exact ho.sublist (by simp)
  · exact ho.shorten (by omega)

/-- Joining an extent that ends before every other begins, or where the next begins, keeps the list in order. -/
theorem inOrder_joinFront {e : Extent} {rest : List Extent} (he : 0 < e.length) (ho : InOrder rest)
    (hbefore : ∀ f ∈ rest, e.start + e.length ≤ f.start) : InOrder (joinFront e rest) := by
  cases rest with
  | nil => exact inOrder_cons.mpr ⟨by simp, he, ho⟩
  | cons f fs =>
    obtain ⟨hf, hlen, hrest⟩ := inOrder_cons.mp ho
    have hef := hbefore f (by simp)
    simp only [joinFront]
    split
    · refine inOrder_cons.mpr ⟨fun g hg => ?_, by dsimp only; omega, hrest⟩
      have := hf g hg
      dsimp only
      omega
    · refine inOrder_cons.mpr ⟨fun g hg => ?_, he, ho⟩
      rcases List.mem_cons.mp hg with rfl | hg
      · omega
      · have := hf g hg
        omega

/-- A joined list begins nowhere before its parts. -/
theorem le_start_joinFront {e : Extent} {rest : List Extent} {k : Nat} (he : k ≤ e.start) (hr : ∀ f ∈ rest, k ≤ f.start) :
    ∀ f ∈ joinFront e rest, k ≤ f.start := by
  unfold joinFront
  split <;> grind

/-- A list with an extent returned begins nowhere before the list and the extent. -/
theorem le_start_returnExtent {e : Extent} {free : List Extent} {k : Nat} (he : k ≤ e.start)
    (hf : ∀ f ∈ free, k ≤ f.start) : ∀ f ∈ returnExtent free e, k ≤ f.start := by
  induction free with
  | nil => simpa [returnExtent] using he
  | cons f fs ih =>
    simp only [List.mem_cons, forall_eq_or_imp] at hf
    unfold returnExtent
    split
    · exact le_start_joinFront he (by simpa using hf)
    · exact le_start_joinFront hf.1 (ih hf.2)

/-- Of two extents that share no step slot and are not empty, the one that starts first ends before the other starts. -/
theorem Extent.end_le_of_disjoint {e f : Extent} (h : ∀ a, e.covers a = true → f.covers a = false) (hf : 0 < f.length)
    (hstart : e.start ≤ f.start) : e.start + e.length ≤ f.start := by
  by_contra hlt
  have := h f.start ((e.covers_iff _).mpr ⟨hstart, by omega⟩)
  simp [Extent.covers] at this
  omega

/-- The return of an extent that shares no step slot with the list keeps the list in order (R10). -/
theorem inOrder_returnExtent {free : List Extent} {e : Extent} (he : 0 < e.length) (ho : InOrder free)
    (hd : ∀ f ∈ free, ∀ a, e.covers a = true → f.covers a = false) : InOrder (returnExtent free e) := by
  induction free with
  | nil => exact inOrder_joinFront (rest := []) he ho (by simp)
  | cons f fs ih =>
    obtain ⟨hf, hlen, hrest⟩ := inOrder_cons.mp ho
    simp only [List.mem_cons, forall_eq_or_imp] at hd
    simp only [returnExtent]
    split
    · rename_i hlt
      have hend : e.start + e.length ≤ f.start := Extent.end_le_of_disjoint hd.1 hlen hlt.le
      refine inOrder_joinFront he ho fun g hg => ?_
      rcases List.mem_cons.mp hg with rfl | hg
      · exact hend
      · have := hf g hg
        omega
    · have hend : f.start + f.length ≤ e.start := by
        refine Extent.end_le_of_disjoint (fun a ha => ?_) he (by omega)
        by_contra hea
        simp [hd.1 a (by simpa using hea)] at ha
      refine inOrder_joinFront hlen (ih hrest hd.2) (le_start_returnExtent hend fun g hg => ?_)
      exact (hf g hg).le

/-- A returned extent is covered beside what the list covered (R10). -/
theorem coverOf_returnExtent (free : List Extent) (e : Extent) (a : Nat) :
    coverOf (returnExtent free e) a = coverOf free a + (e.covers a).toNat := by
  rw [coverOf, returnExtent_covers, ← coverOf, coverOf_cons]

end Sys2Proof.Machine

namespace Sys2Proof.Machine

open Sys2Proof

/-! ## A sound store (R7, R8, R11) -/

/-- The table is the list of its eight entries. -/
theorem Store.table_toList (st : Store) : st.table.toList = (List.range 8).map st.entry := by
  apply List.ext_getElem (by simp)
  intro n hn _
  simp [Store.entry, List.getD_eq_getElem?_getD, List.getElem?_eq_getElem hn]

theorem Store.coverCount_eq (st : Store) (a : Nat) :
    st.coverCount a = coverOf st.free a + (List.range 8).countP (fun n => (st.entry n).covers a) := by
  simp [Store.coverCount, Store.table_toList, coverOf, List.countP_map, Function.comp_def]

/-- A count of one list under two tests that differ at one of its members at most. -/
theorem countP_update {l : List Nat} (hl : l.Nodup) {slot : Nat} (hs : slot ∈ l) {p q : Nat → Bool}
    (h : ∀ n, n ≠ slot → q n = p n) : l.countP q + (p slot).toNat = l.countP p + (q slot).toNat := by
  induction l with
  | nil => cases hs
  | cons n rest ih =>
    obtain ⟨hn, hrest⟩ := List.nodup_cons.mp hl
    have toNat_eq (b : Bool) : (if b = true then 1 else 0) = b.toNat := by cases b <;> rfl
    simp only [List.countP_cons, toNat_eq]
    rcases List.mem_cons.mp hs with rfl | hs
    · have : rest.countP q = rest.countP p := List.countP_congr fun m hm => by
        rw [h m (fun he => hn (he ▸ hm))]
      omega
    · have := ih hrest hs
      rw [h n (fun he => hn (he ▸ hs))]
      omega

/-- What a store covers after an entry and its free list are replaced, against what it covered before. -/
theorem Store.coverCount_replace (st : Store) {slot : Nat} (hslot : slot < 8) (e : Entry) (free : List Extent) (a : Nat) :
    ({ st.setEntry slot e with free := free } : Store).coverCount a + coverOf st.free a + ((st.entry slot).covers a).toNat =
      st.coverCount a + coverOf free a + (e.covers a).toNat := by
  have hentry (n : Nat) : ({ st.setEntry slot e with free := free } : Store).entry n = if n = slot then e else st.entry n :=
    Store.entry_setEntry st slot n e hslot
  have hcount := countP_update (l := List.range 8) List.nodup_range (List.mem_range.mpr hslot)
    (p := fun n => (st.entry n).covers a)
    (q := fun n => (({ st.setEntry slot e with free := free } : Store).entry n).covers a)
    (fun n hn => by rw [hentry, if_neg hn])
  simp only [hentry slot, if_true] at hcount
  simp only [Store.coverCount_eq]
  omega

/-- A free extent shares no step slot with the recipe of an entry. -/
theorem Store.Sound.disjoint {st : Store} (h : st.Sound) {slot : Nat} (hslot : slot < 8) {f : Extent} (hf : f ∈ st.free)
    {a : Nat} (ha : (st.entry slot).covers a = true) : f.covers a = false := by
  have hone := h.covered a
  have hentry : 0 < (List.range 8).countP (fun n => (st.entry n).covers a) :=
    List.countP_pos_iff.mpr ⟨slot, List.mem_range.mpr hslot, ha⟩
  have hfree : coverOf st.free a = 0 := by
    rw [Store.coverCount_eq] at hone
    split at hone <;> omega
  simpa using List.countP_eq_zero.mp hfree f hf

/-- The steps of an entry's recipe lie below 256. -/
theorem Store.Sound.lt_of_covers {st : Store} (h : st.Sound) {slot : Nat} (hslot : slot < 8) {a : Nat}
    (ha : (st.entry slot).covers a = true) : a < 256 := by
  have hone := h.covered a
  have hentry : 0 < (List.range 8).countP (fun n => (st.entry n).covers a) :=
    List.countP_pos_iff.mpr ⟨slot, List.mem_range.mpr hslot, ha⟩
  rw [Store.coverCount_eq] at hone
  split at hone <;> omega

/-- A store stays sound when an entry and the free list are replaced by others that cover together what those covered. -/
theorem Store.Sound.replace {st : Store} (h : st.Sound) {slot : Nat} (hslot : slot < 8) {e : Entry} {free : List Extent}
    (hcover : ∀ a, coverOf free a + (e.covers a).toNat = coverOf st.free a + ((st.entry slot).covers a).toNat)
    (horder : InOrder free) (hsteps : ∀ n, e.steps = some n → 0 < n) :
    ({ st.setEntry slot e with free := free } : Store).Sound where
  covered a := by
    have := st.coverCount_replace hslot e free a
    have := hcover a
    rw [← h.covered a]
    omega
  apart := horder.1
  nonempty := horder.2
  steps n k hk := by
    replace hk : (if n = slot then e else st.entry n).steps = some k := Store.entry_setEntry st slot n e hslot ▸ hk
    split at hk
    · exact hsteps k hk
    · exact h.steps n k hk
  mem := h.mem

theorem Store.Sound.inOrder {st : Store} (h : st.Sound) : InOrder st.free := ⟨h.apart, h.nonempty⟩

/-- A store stays sound when an entry is replaced by one with the same extent. -/
theorem Store.Sound.setEntry {st : Store} (h : st.Sound) {slot : Nat} (hslot : slot < 8) {e : Entry}
    (hcover : e.covers = (st.entry slot).covers) (hsteps : e.steps = (st.entry slot).steps) : (st.setEntry slot e).Sound :=
  h.replace hslot (free := st.free) (fun a => by rw [hcover]) h.inOrder fun n hn => h.steps slot n (hsteps ▸ hn)

/-- A recipe removed, its extent returned, leaves a sound store (R10, R21, R22). -/
theorem Store.Sound.freeEntry {st : Store} (h : st.Sound) {slot start length : Nat} (hslot : slot < 8)
    (hcover : (st.entry slot).covers = Extent.covers ⟨start, length⟩) (hsteps : (st.entry slot).steps = some length) :
    (st.freeEntry slot start length).Sound := by
  refine h.replace hslot (fun a => ?_) (inOrder_returnExtent (h.steps slot _ hsteps) h.inOrder fun f hf a ha => ?_)
    (by simp [Entry.steps])
  · rw [coverOf_returnExtent, hcover]
    rfl
  · exact h.disjoint hslot hf (hcover ▸ ha)

/-- An entry that is not FREE belongs to one of the eight slots. -/
theorem Store.lt_of_entry_ne_free {st : Store} {slot : Nat} (h : st.entry slot ≠ .free) : slot < 8 := by
  by_contra hge
  exact h (st.entry_beyond slot (by omega))

theorem Store.lt_of_loading {st : Store} {slot id start length : Nat} {port : PortId} {written : List Nat}
    {fault : Option SealFault} (h : st.entry slot = .loading id port start length written fault) : slot < 8 :=
  Store.lt_of_entry_ne_free (st := st) (by rw [h]; exact Entry.noConfusion)

theorem Store.lt_of_ready {st : Store} {slot id start length : Nat} {users : PerBowl Bool} {weighs : Bool}
    (h : st.entry slot = .ready id start length users weighs) : slot < 8 :=
  Store.lt_of_entry_ne_free (st := st) (by rw [h]; exact Entry.noConfusion)

/-- A store that differs in user sets only. -/
structure Store.SameButUsers (st st' : Store) : Prop where
  mem : st'.mem = st.mem
  free : st'.free = st.free
  entries : ∀ n, (st'.entry n).withoutUsers = (st.entry n).withoutUsers

theorem Entry.withoutUsers_covers (e : Entry) : e.withoutUsers.covers = e.covers := by cases e <;> rfl

theorem Entry.withoutUsers_steps (e : Entry) : e.withoutUsers.steps = e.steps := by cases e <;> rfl

/-- User sets have no part in soundness. -/
theorem Store.Sound.of_sameButUsers {st st' : Store} (h : st.Sound) (hs : st.SameButUsers st') : st'.Sound where
  covered a := by
    have hcovers (n : Nat) : (st'.entry n).covers = (st.entry n).covers := by
      rw [← Entry.withoutUsers_covers, hs.entries, Entry.withoutUsers_covers]
    rw [← h.covered a, Store.coverCount_eq, Store.coverCount_eq, hs.free]
    simp only [hcovers]
  apart := hs.free ▸ h.apart
  nonempty := hs.free ▸ h.nonempty
  steps n k hk := by
    rw [← Entry.withoutUsers_steps, hs.entries, Entry.withoutUsers_steps] at hk
    exact h.steps n k hk
  mem := hs.mem ▸ h.mem

/-- What is within a bowl's operation changes user sets only. -/
theorem State.Within.store {s t : State} {b : BowlId} (h : s.Within t b) : s.store.SameButUsers t.store :=
  ⟨h.mem, h.free, h.entries⟩

/-- Every entry starts FREE (R11). -/
@[simp] theorem Store.entry_initial (n : Nat) : Store.initial.entry n = .free := by
  by_cases hn : n < 8
  · rw [Store.entry, List.getD_eq_getElem?_getD, List.getElem?_eq_getElem (by simpa using hn)]
    simp only [Store.initial, Vector.toList_replicate, List.getElem_replicate, Option.getD_some]
  · exact Store.entry_beyond _ _ (by omega)

/-- The starting store is sound. -/
theorem Store.Sound.initial : Store.initial.Sound where
  covered a := by
    rw [Store.coverCount_eq]
    simp only [Store.entry_initial, Entry.covers]
    simp [Store.initial, Extent.covers, Bool.toNat, Bool.cond_decide]
  apart := by simp [Store.initial]
  nonempty := by simp [Store.initial]
  steps n k hk := by simp [Entry.steps] at hk
  mem := rfl

end Sys2Proof.Machine

namespace Sys2Proof.Machine

open Sys2Proof

/-! ## What the operations of one bowl are made of -/

/-- A bowl in IDLE or CALIBRATING, which has no run (R26, R58). -/
def RunContext.AtRest (r : RunContext) : Prop := r.state = .idle ∨ r.state = .calibrating

/-- A run context that goes on with the same run source, and comes to rest from rest only. -/
def RunContext.GoesOn (r r' : RunContext) : Prop := r'.source = r.source ∧ (r'.AtRest → r.AtRest)

/-- `t` comes of `s` by operations of bowl `b`: changes of its blocks in which its run goes on, raisings of its notices, and the
three ways in which its run source changes. START from IDLE joins the user set of a READY slot (R29), MANUAL begins from IDLE
(R30), and the end of a run leaves the user set (R42). -/
inductive BowlOps (b : BowlId) : State → State → Prop
  | blocks {s : State} (x : Bowl) (goesOn : (s.bowl b).run.GoesOn x.run) : BowlOps b s (s.setBowl b x)
  | raise (s : State) (k : BowlCause) : BowlOps b s (s.raise (.ofBowl b k))
  | join {s : State} {slot id start length : Nat} {users : PerBowl Bool} {weighs : Bool} (r : RunContext)
      (ready : s.store.entry slot = .ready id start length users weighs) (idle : (s.bowl b).run.state = .idle)
      (source : r.source = .slot slot) (active : ¬ r.AtRest) : BowlOps b s ((s.setUser slot b true).setRun b r)
  | manual {s : State} (r : RunContext) (idle : (s.bowl b).run.state = .idle) (source : r.source = .manual)
      (active : ¬ r.AtRest) : BowlOps b s (s.setRun b r)
  | leave {s : State} (r : RunContext) (source : r.source = .noRun) : BowlOps b s ((s.leaveSlot b).setRun b r)
  | trans {s t u : State} (first : BowlOps b s t) (second : BowlOps b t u) : BowlOps b s u

/-- A run context with the same source, in a state with a run. -/
theorem RunContext.GoesOn.of_active {r r' : RunContext} (hs : r'.source = r.source) (h : ¬ r'.AtRest) : r.GoesOn r' :=
  ⟨hs, fun hr => absurd hr h⟩

namespace BowlOps

variable (s : State) (b : BowlId)

theorem refl : BowlOps b s s := by
  simpa using blocks (s := s) (b := b) (s.bowl b) ⟨rfl, id⟩

theorem setBowl (x : Bowl) (h : (s.bowl b).run.GoesOn x.run := by exact ⟨rfl, id⟩) : BowlOps b s (s.setBowl b x) :=
  blocks x h

theorem setRun (r : RunContext) (h : (s.bowl b).run.GoesOn r := by exact ⟨rfl, id⟩) : BowlOps b s (s.setRun b r) :=
  blocks _ h

/-- A change of the run context to a state with a run. -/
theorem setActive (r : RunContext) (source : r.source = (s.bowl b).run.source := by rfl)
    (active : ¬ r.AtRest := by simp [RunContext.AtRest]) : BowlOps b s (s.setRun b r) :=
  setRun s b r (.of_active source active)

theorem setWeigh (c : Channel) : BowlOps b s (s.setWeigh b c) := setBowl s b _

theorem setHeat (h : HeatUnit) : BowlOps b s (s.setHeat b h) := setBowl s b _

theorem setStir (u : StirUnit) : BowlOps b s (s.setStir b u) := setBowl s b _

theorem setCal (c : BowlCal) : BowlOps b s (s.setCal b c) := setBowl s b _

theorem setFlags (w : FlagWord) : BowlOps b s (s.setFlags b w) := setRun s b _

theorem noteClamp (c : Bool) : BowlOps b s (s.noteClamp b c) := by
  cases c
  · exact refl s b
  · exact setFlags s b _

theorem noteShort (c : Bool) : BowlOps b s (s.noteShort b c) := by
  cases c
  · exact refl s b
  · exact setFlags s b _

theorem putStir (r : StirUnit × Bool) : BowlOps b s (s.putStir b r) := (setStir s b _).trans (noteClamp _ b _)

theorem putHeat (r : HeatUnit × Bool) : BowlOps b s (s.putHeat b r) := (setHeat s b _).trans (noteClamp _ b _)

/-- A raising made on a condition. -/
theorem raiseIf (c : Prop) [Decidable c] (k : BowlCause) : BowlOps b s (if c then s.raise (.ofBowl b k) else s) := by
  split
  · exact raise s k
  · exact refl s b

/-! ### Handing orders -/

theorem giveRest (e : Bool) : BowlOps b s (s.giveRest b e) := (setHeat s b _).trans (putStir _ b _)

theorem forceOff : BowlOps b s (s.forceOff b) := (setHeat s b _).trans (putStir _ b _)

theorem giveStir (n : Bool) (p : Option StirPart) : BowlOps b s (s.giveStir b n p) := by
  cases p with
  | none => exact putStir s b _
  | some p => exact putStir s b _

theorem giveHeat (n : Bool) (p : Option HeatPart) : BowlOps b s (s.giveHeat b n p) := by
  cases p with
  | none => exact setHeat s b _
  | some p => exact putHeat s b _

theorem handParts : BowlOps b s (s.handParts b) :=
  (setRun _ b _).trans ((giveHeat _ b _ _).trans (giveStir _ b _ _))

theorem armWeigh (w : Option WeighPart) : BowlOps b s (s.armWeigh b w) := by
  cases w with
  | none => exact setWeigh s b _
  | some w => exact (setWeigh s b _).trans (noteClamp _ b _)

theorem withdrawWeigh : BowlOps b s (s.withdrawWeigh b) := setWeigh s b _

theorem handHold (k : HoldBand) (n : Bool) : BowlOps b s (s.handHold b k n) := (setHeat s b _).trans (giveStir _ b _ _)

/-! ### Pausing -/

theorem enterPaused (back : ResumeState) : BowlOps b s (s.enterPaused b back) :=
  (setActive _ b _).trans ((giveRest _ b _).trans (raise _ _))

theorem addPause (join : PauseSet → PauseSet) : BowlOps b s (s.addPause b join) := by
  simp only [State.addPause]
  split
  · exact (setRun _ b _).trans (enterPaused _ b _)
  · exact (setRun _ b _).trans (enterPaused _ b _)
  · exact setRun _ b _
  · exact refl s b
  · exact refl s b
  · exact refl s b

theorem lidOpened : BowlOps b s (s.lidOpened b) := by
  unfold State.lidOpened
  split
  · exact addPause s b _
  · exact refl s b

theorem retestLid : BowlOps b s (s.retestLid b) := by
  simp only [State.retestLid]
  split
  · exact addPause s b _
  · exact refl s b

/-! ### Entering steps -/

/-- The PAUSED state that a step entry may end in (R31). -/
theorem entryEnd (c : Bool) :
    BowlOps b s
      (if c then (s.setRun b { (s.bowl b).run with state := .paused, resume := some .running }).raise (.ofBowl b .paused)
        else s) := by
  split
  · exact (setActive _ b _).trans (raise _ _)
  · exact refl s b

/-- What a step entry hands: rest where the bowl is to pause, the step's parts otherwise (R31, R32). -/
theorem entryHanding (c : Bool) : BowlOps b s (if c then s.giveRest b false else s.handParts b) := by
  split
  · exact giveRest s b _
  · exact handParts s b

theorem enterStep (f : InForce) (i : Option Nat) : BowlOps b s (s.enterStep b f i) := by
  simp only [State.enterStep]
  refine trans ?_ (entryEnd _ b _)
  refine trans ?_ (raise _ _)
  refine trans ?_ (raiseIf _ b _ _)
  refine trans ?_ (armWeigh _ b _)
  refine trans ?_ (entryHanding _ b _)
  exact ((setRun _ b _).trans (noteClamp _ b _)).trans (setRun _ b _)

theorem pushLoop (f : InForce) (t : Nat) : BowlOps b s (s.pushLoop b f t) := by
  unfold State.pushLoop
  split
  · exact (setRun _ b _).trans (noteClamp _ b _)
  · exact refl s b

theorem transferTo (t : Nat) : BowlOps b s (s.transferTo b t) := by
  unfold State.transferTo
  split
  · exact (setRun _ b _).trans ((enterStep _ b _ _).trans (pushLoop _ b _ _))
  · exact refl s b

theorem loopBack (t : Nat) : BowlOps b s (s.loopBack b t) := by
  unfold State.loopBack
  split
  · exact enterStep s b _ _
  · exact refl s b

/-! ### The end of a step and of a run -/

theorem endRun : BowlOps b s (s.endRun b) := (leave _ rfl).trans ((giveRest _ b _).trans (withdrawWeigh _ b))

theorem finishRun : BowlOps b s (s.finishRun b) := (endRun s b).trans (raise _ _)

theorem enterHold (c : BandChoice) (l : Nat) : BowlOps b s (s.enterHold b c l) :=
  (setActive _ b _).trans ((noteClamp _ b _).trans (handHold _ b _ _))

theorem applyFlow (st : Step) : BowlOps b s (s.applyFlow b st) := by
  simp only [State.applyFlow]
  split
  · exact finishRun s b
  · split
    · exact transferTo s b _
    · exact transferTo s b _
    · exact finishRun s b
    · exact enterHold s b _ _

theorem endStep : BowlOps b s (s.endStep b) := by
  simp only [State.endStep]
  split
  · exact (setRun _ b _).trans ((withdrawWeigh _ b).trans (loopBack _ b _))
  · exact (setRun _ b _).trans ((withdrawWeigh _ b).trans (applyFlow _ b _))

theorem evaluate : BowlOps b s (s.evaluate b) := by
  simp only [State.evaluate]
  split
  · exact endStep s b
  · exact refl s b

theorem changeFlags (w : FlagWord) : BowlOps b s (s.changeFlags b w) := by
  simp only [State.changeFlags]
  split
  · exact setFlags s b w
  · exact (setFlags s b w).trans (evaluate _ b)

/-! ### Calibrations and faults -/

theorem closeCalibration (o : CalOutcome) : BowlOps b s (s.closeCalibration b o) := (setBowl s b _).trans (raise _ _)

theorem endCalibration {s : State} {b : BowlId} (o : CalOutcome) (h : (s.bowl b).run.state = .calibrating) :
    BowlOps b s (s.endCalibration b o) :=
  (closeCalibration s b o).trans (setRun _ b _ ⟨rfl, fun _ => .inr (by simpa [State.closeCalibration] using h)⟩)

theorem abortCalibration : BowlOps b s (s.abortCalibration b).state := by
  unfold State.abortCalibration
  split
  · rename_i h
    exact endCalibration .aborted h
  · exact refl s b

theorem enterCalibrating {s : State} {b : BowlId} (c : BowlCal) (h : (s.bowl b).run.state = .idle) :
    BowlOps b s (s.enterCalibrating b c) :=
  (setBowl s b _ (by exact ⟨rfl, fun _ => .inl h⟩)).trans (noteClamp _ b _)

theorem calibrationConversion {s : State} {b : BowlId} (r : Int) (h : (s.bowl b).run.state = .calibrating) :
    BowlOps b s (s.calibrationConversion b r) := by
  simp only [State.calibrationConversion]
  split
  · exact (setWeigh s b _).trans ((setFlags _ b _).trans (setCal _ b _))
  · refine (setWeigh s b _).trans ((setFlags _ b _).trans ((setCal _ b _).trans (endCalibration _ ?_)))
    simpa using h

theorem reportFault (c : FaultCause) (v : Int) : BowlOps b s (s.reportFault b c v) := by
  have closed : BowlOps b s (if (s.bowl b).run.state = .calibrating then s.closeCalibration b .aborted else s) := by
    split
    · exact closeCalibration s b _
    · exact refl s b
  simp only [State.reportFault]
  refine trans ?_ (raise _ _)
  split
  · exact setRun _ b _
  · exact closed.trans ((setActive _ b _ (active := by simp [RunContext.AtRest, RunContext.faulted])).trans
      ((forceOff _ b).trans (withdrawWeigh _ b)))

/-! ### Requests taken -/

theorem beginRun {s : State} {b : BowlId} {slot i : Nat} (idle : (s.bowl b).run.state = .idle)
    (admitted : s.startSlotRefusal b slot i = none) : BowlOps b s (s.beginRun b slot i) := by
  unfold State.startSlotRefusal at admitted
  split at admitted
  · rename_i ready
    exact (join _ ready idle rfl (by simp [RunContext.AtRest, RunContext.started])).trans (transferTo _ b _)
  · cases admitted
  · cases admitted

theorem beginManual {s : State} {b : BowlId} (r : Record) (idle : (s.bowl b).run.state = .idle) :
    BowlOps b s (s.beginManual b r) :=
  (manual _ idle rfl (by simp [RunContext.AtRest, RunContext.started])).trans (enterStep _ b _ _)

theorem resumeBowl : BowlOps b s (s.resumeBowl b) := by
  simp only [State.resumeBowl]
  split
  · split
    · exact (setActive s b _).trans (handHold _ b _ _)
    · exact setActive s b _
  · split
    · exact (setActive s b _).trans ((handParts _ b).trans (endStep _ b))
    · exact (setActive s b _).trans ((handParts _ b).trans (evaluate _ b))

theorem clearFault : BowlOps b s (s.clearFault b) := (setHeat s b _).trans (endRun _ b)

theorem takeAnswer (no : Bool) : BowlOps b s (s.takeAnswer b no) := (setRun _ b _).trans (changeFlags _ b _)

theorem takeAdjust (offset : Option Int) (speed extension : Option Nat) :
    BowlOps b s (s.takeAdjust b offset speed extension) := by
  have handIf (s : State) (c : Prop) [Decidable c] : BowlOps b s (if c then s else s.handParts b) := by
    split
    · exact refl s b
    · exact handParts s b
  have evaluateIf (s : State) (c : Prop) [Decidable c] : BowlOps b s (if c then s else s.evaluate b) := by
    split
    · exact refl s b
    · exact evaluate s b
  simp only [State.takeAdjust]
  split
  · refine trans ?_ (evaluateIf _ _)
    refine trans ?_ (retestLid _ b)
    refine trans ?_ (handIf _ _)
    exact (setRun s b _).trans (noteClamp _ b _)
  · exact (setRun s b _).trans (noteClamp _ b _)

/-! ### Events -/

theorem weighConversion (r : Int) : BowlOps b s (s.weighConversion b r) :=
  (setWeigh s b _).trans ((noteClamp _ b _).trans (changeFlags _ b _))

theorem loadCell (r : Int) : BowlOps b s (s.loadCell b r) := by
  unfold State.loadCell
  split
  · rename_i h
    exact calibrationConversion r h
  · exact weighConversion s b r

theorem sensorOutside (code : Nat) : BowlOps b s (s.sensorOutside b code) := by
  simp only [State.sensorOutside]
  split
  · exact setHeat s b _
  · exact (setHeat s b _).trans (reportFault _ b _ _)

theorem overTemperature (t : Int) : BowlOps b s (s.overTemperature b t) := by
  simp only [State.overTemperature]
  split
  · exact (setHeat s b _).trans (reportFault _ b _ _)
  · exact refl s b

theorem decideT : BowlOps b s (s.decideT b) := by
  simp only [State.decideT]
  split
  · split
    · exact (setHeat s b _).trans (changeFlags _ b _)
    · exact setHeat s b _
  · exact refl s b

theorem regulate : BowlOps b s (s.regulate b) := by
  simp only [State.regulate]
  split
  · exact setHeat s b _
  · exact refl s b

theorem temperatureInside (t : Int) : BowlOps b s (s.temperatureInside b t) :=
  (setHeat s b _).trans ((overTemperature _ b _).trans ((retestLid _ b).trans ((putStir _ b _).trans
    ((decideT _ b).trans (regulate _ b)))))

theorem temperature (code : Nat) : BowlOps b s (s.temperature b code) := by
  unfold State.temperature
  split
  · exact temperatureInside s b _
  · exact sensorOutside s b code

theorem stallExpiry : BowlOps b s (s.stallExpiry b) := by
  simp only [State.stallExpiry]
  split
  · exact (setStir s b _).trans (reportFault _ b _ _)
  · exact refl s b

theorem lockExpiry : BowlOps b s (s.lockExpiry b) := by
  simp only [State.lockExpiry]
  split
  · exact (setStir s b _).trans ((reportFault _ b _ _).trans (putStir _ b _))
  · exact refl s b

theorem lidChange (level : SwitchLevel) : BowlOps b s (s.lidChange b level) := by
  have faultIf (s : State) (c : Prop) [Decidable c] : BowlOps b s (if c then s.reportFault b .lock 2 else s) := by
    split
    · exact reportFault s b _ _
    · exact refl s b
  have openIf (s : State) (c : Prop) [Decidable c] : BowlOps b s (if c then s.lidOpened b else s) := by
    split
    · exact lidOpened s b
    · exact refl s b
  simp only [State.lidChange]
  split
  · exact setStir s b _
  · refine trans ?_ (openIf _ _)
    refine trans ?_ (faultIf _ _)
    exact putStir s b _

theorem confirmChange (level : SwitchLevel) : BowlOps b s (s.confirmChange b level) := by
  simp only [State.confirmChange]
  split
  · exact setStir s b _
  · exact putStir s b _

theorem timeExpiry : BowlOps b s (s.timeExpiry b) := by
  simp only [State.timeExpiry]
  split
  · refine trans (setRun s b _ ?_) (evaluate _ b)
    split <;> exact ⟨rfl, id⟩
  · exact refl s b

theorem holdExpiry : BowlOps b s (s.holdExpiry b) := by
  unfold State.holdExpiry
  split
  · exact finishRun s b
  · exact refl s b

theorem endCompletion : BowlOps b s (s.endCompletion b) := by
  simp only [State.endCompletion]
  split
  · exact endStep s b
  · exact refl s b

theorem unitsLoseMains : BowlOps b s (s.unitsLoseMains b) := (setHeat s b _).trans (putStir _ b _)

theorem handResults (a : Account) : BowlOps b s (s.handResults a b) :=
  (setHeat s b _).trans ((setStir _ b _).trans ((noteClamp _ b _).trans (noteShort _ b _)))

end BowlOps

end Sys2Proof.Machine

namespace Sys2Proof.Machine

open Sys2Proof

/-! ## The commands of one bowl -/

/-- An answer that changes nothing, or operates the bowl that the first parameter names. -/
def Reply.OfBowl (r : Reply) (s : State) (params : List Byte) : Prop :=
  r.state = s ∨ ∃ b, firstBowl params = some b ∧ BowlOps b s r.state

theorem refuse_ofBowl (s : State) (st : Status) (params : List Byte) : (refuse s st).OfBowl s params := .inl rfl

/-- A request for the bowl of its first parameter. -/
theorem withBowl_ofBowl {pb : Byte} {rest : List Byte} {s : State} {f : BowlId → Reply}
    (h : ∀ b, BowlOps b s (f b).state) : (withBowl pb s f).OfBowl s (pb :: rest) := by
  unfold withBowl
  split
  · rename_i b hb
    exact .inr ⟨b, hb, h b⟩
  · exact refuse_ofBowl _ _ _

/-- The tests before START and MANUAL pass on an IDLE bowl only (R29, R30). -/
theorem State.idle_of_startRefusal {s : State} {b : BowlId} (h : s.startRefusal b = none) :
    (s.bowl b).run.state = .idle := by
  unfold State.startRefusal at h
  split at h
  · cases h
  · split at h
    · cases h
    · rename_i idle
      exact not_not.mp idle

/-- The tests before a calibration pass on an IDLE bowl only (R146, R150). -/
theorem State.idle_of_calibrationRefusal {s : State} {b : BowlId} (h : s.calibrationRefusal b = none) :
    (s.bowl b).run.state = .idle := by
  unfold State.calibrationRefusal at h
  split at h
  · cases h
  · split at h
    · cases h
    · rename_i idle
      exact not_not.mp idle

/-- A test that refuses changes nothing where it holds. -/
theorem BowlOps.refuseIf {b : BowlId} {s : State} {c : Prop} [Decidable c] {st : Status} {r : Reply}
    (h : ¬ c → BowlOps b s r.state) : BowlOps b s (if c then refuse s st else r).state := by
  split
  · exact .refl s b
  · rename_i hc
    exact h hc

theorem answerStart_ofBowl (params : List Byte) (s : State) : (answerStart params s).OfBowl s params := by
  unfold answerStart
  split
  · refine withBowl_ofBowl fun b => .refuseIf fun _ => ?_
    split
    · exact .refl s b
    · rename_i idle
      split
      · exact .refl s b
      · rename_i admitted
        exact .beginRun (State.idle_of_startRefusal idle) admitted
  · exact refuse_ofBowl _ _ _

theorem answerManual_ofBowl (params : List Byte) (s : State) : (answerManual params s).OfBowl s params := by
  unfold answerManual
  split
  · refine withBowl_ofBowl fun b => ?_
    split
    · exact .refl s b
    · split
      · exact .refl s b
      · rename_i idle
        exact .refuseIf fun _ => .beginManual _ (State.idle_of_startRefusal idle)
  · exact refuse_ofBowl _ _ _

theorem answerPause_ofBowl (params : List Byte) (s : State) : (answerPause params s).OfBowl s params := by
  unfold answerPause
  split
  · refine withBowl_ofBowl fun b => ?_
    unfold State.pauseBowl
    cases (s.bowl b).run.state with
    | running | paused | holding => exact .addPause s b _
    | idle | calibrating | fault => exact .refl s b
  · exact refuse_ofBowl _ _ _

theorem answerResume_ofBowl (params : List Byte) (s : State) : (answerResume params s).OfBowl s params := by
  unfold answerResume
  split
  · exact withBowl_ofBowl fun b => .refuseIf fun _ => .refuseIf fun _ => .refuseIf fun _ => .resumeBowl s b
  · exact refuse_ofBowl _ _ _

theorem answerClearFault_ofBowl (params : List Byte) (s : State) : (answerClearFault params s).OfBowl s params := by
  unfold answerClearFault
  split
  · exact withBowl_ofBowl fun b => .refuseIf fun _ => .refuseIf fun _ => .clearFault s b
  · exact refuse_ofBowl _ _ _

theorem answerStop_ofBowl (params : List Byte) (s : State) : (answerStop params s).OfBowl s params := by
  unfold answerStop
  split
  · refine withBowl_ofBowl fun b => ?_
    unfold State.stopBowl
    cases (s.bowl b).run.state with
    | idle => exact .forceOff s b
    | running | paused | holding => exact (BowlOps.forceOff s b).trans (.endRun _ b)
    | calibrating => exact .abortCalibration s b
    | fault => exact .refuseIf fun _ => .clearFault s b
  · exact refuse_ofBowl _ _ _

theorem answerSkipStep_ofBowl (params : List Byte) (s : State) : (answerSkipStep params s).OfBowl s params := by
  unfold answerSkipStep
  split
  · refine withBowl_ofBowl fun b => ?_
    cases (s.bowl b).run.state with
    | running => exact .endStep s b
    | holding => exact .finishRun s b
    | idle | paused | calibrating | fault => exact .refl s b
  · exact refuse_ofBowl _ _ _

theorem answerAnswer_ofBowl (params : List Byte) (s : State) : (answerAnswer params s).OfBowl s params := by
  unfold answerAnswer
  split
  · refine withBowl_ofBowl fun b => .refuseIf fun _ => .refuseIf fun _ => ?_
    split
    · exact .refl s b
    · exact .refuseIf fun _ => .takeAnswer s b _
  · exact refuse_ofBowl _ _ _

theorem answerAdjust_ofBowl (params : List Byte) (s : State) : (answerAdjust params s).OfBowl s params := by
  unfold answerAdjust
  split
  · exact withBowl_ofBowl fun b => .refuseIf fun _ => .refuseIf fun _ => .takeAdjust s b _ _ _
  · exact refuse_ofBowl _ _ _

theorem answerTare_ofBowl (params : List Byte) (s : State) : (answerTare params s).OfBowl s params := by
  unfold answerTare
  split
  · exact withBowl_ofBowl fun b =>
      .refuseIf fun _ => .refuseIf fun _ => .refuseIf fun _ => .refuseIf fun _ => .setWeigh s b _
  · exact refuse_ofBowl _ _ _

theorem answerSetBowlConfig_ofBowl (params : List Byte) (s : State) : (answerSetBowlConfig params s).OfBowl s params := by
  unfold answerSetBowlConfig
  split
  · refine withBowl_ofBowl fun b => ?_
    split
    · exact .refl s b
    · exact .refuseIf fun _ => .refuseIf fun _ => .refuseIf fun _ => .refuseIf fun _ => .setBowl s b _
  · exact refuse_ofBowl _ _ _

theorem answerCalibrateZero_ofBowl (params : List Byte) (s : State) : (answerCalibrateZero params s).OfBowl s params := by
  unfold answerCalibrateZero
  split
  · split
    · exact refuse_ofBowl _ _ _
    · rename_i b hb
      refine .inr ⟨b, hb, ?_⟩
      split
      · exact .refl s b
      · rename_i idle
        exact .enterCalibrating _ (State.idle_of_calibrationRefusal idle)
  · exact refuse_ofBowl _ _ _

theorem answerCalibrateSpan_ofBowl (params : List Byte) (s : State) : (answerCalibrateSpan params s).OfBowl s params := by
  unfold answerCalibrateSpan
  split
  · dsimp only
    split
    · exact refuse_ofBowl _ _ _
    · rename_i b hb
      refine .inr ⟨b, hb, .refuseIf fun _ => ?_⟩
      split
      · exact .refl s b
      · rename_i idle
        split
        · exact .enterCalibrating _ (State.idle_of_calibrationRefusal idle)
        · exact .refl s b
  · exact refuse_ofBowl _ _ _

theorem answerAbortCalibration_ofBowl (params : List Byte) (s : State) :
    (answerAbortCalibration params s).OfBowl s params := by
  unfold answerAbortCalibration
  split
  · split
    · exact refuse_ofBowl _ _ _
    · rename_i b hb
      exact .inr ⟨b, hb, .abortCalibration s b⟩
  · exact refuse_ofBowl _ _ _

/-- An event of one bowl is made of the operations of that bowl. -/
theorem BowlOps.event {i : Instr} {f : State → State} {b : BowlId} (h : eventOf i = some f) (hb : ownBowl i = some b)
    (s : State) : BowlOps b s (f s) := by
  cases i with
  | loadCellConversion c sample => cases h; cases hb; exact .loadCell s b _
  | holdOffExpiry c => cases h; cases hb; exact .setWeigh s b _
  | temperatureConversion c code => cases h; cases hb; exact .temperature s b _
  | relaySettleExpiry c => cases h; cases hb; exact .setHeat s b _
  | configSettleExpiry c => cases h; cases hb; exact .setHeat s b _
  | standstillTimerExpiry c => cases h; cases hb; exact .putStir s b _
  | stallTimerExpiry c => cases h; cases hb; exact .stallExpiry s b
  | lockTimerExpiry c => cases h; cases hb; exact .lockExpiry s b
  | rampStep c => cases h; cases hb; exact .putStir s b _
  | intervalPhaseChange c => cases h; cases hb; exact .putStir s b _
  | switchLevelChange c sw level => cases h; cases hb; exact .setStir s b _
  | lidChange c level => cases h; cases hb; exact .lidChange s b level
  | confirmSwitchChange c level => cases h; cases hb; exact .confirmChange s b level
  | switchFirstReading c sw level => cases h; cases hb; exact .setStir s b _
  | timeExpiry c => cases h; cases hb; exact .timeExpiry s b
  | holdLimitExpiry c => cases h; cases hb; exact .holdExpiry s b
  | endPendingCompletion c => cases h; cases hb; exact .endCompletion s b
  | autoloadComplete | tachoMeasurement | zeroCrossArrival | gapTimerExpiry | eepromPageWriteDone | eepromPageTimeout
  | portReady => cases hb
  | nop | getStatus | readPage | getNotices | ackNotice | setNotice | setThreshold | resetPort | openRecipe | writeStep
  | sealRecipe | discardRecipe | unloadRecipe | listRecipes | start | manual | pause | resume | stop | skipStep | answer | adjust
  | tare | clearFault | setBowlConfig | calibrateZero | calibrateSpan | abortCalibration | saveCalibration | setPowerCap
  | setArbitration | badFrame | unknownRequest | emptyTransfer | powerOn | resetPinAssert | resetPinRelease => cases h

/-! ## What the operations of one bowl leave alone -/

/-- The operations of a bowl stay within it. -/
theorem BowlOps.within {b : BowlId} {s t : State} (h : BowlOps b s t) : s.Within t b := by
  induction h with
  | blocks x goesOn => exact State.within_setBowl _ b x
  | raise s k => exact State.within_raise s b k
  | join r ready idle source active => exact (State.within_setUser _ _ b _).trans (State.within_setRun _ b r)
  | manual r idle source active => exact State.within_setRun _ b r
  | @leave s r source =>
    have left : s.Within (s.leaveSlot b) b := by
      unfold State.leaveSlot
      split
      · exact State.within_setUser s _ b _
      · exact .refl s b
      · exact .refl s b
    exact left.trans (State.within_setRun _ b r)
  | trans _ _ ih₁ ih₂ => exact ih₁.trans ih₂

/-- A port's change is no change of a bowl. -/
theorem State.OnlyBowl.setPort {s t : State} {b : BowlId} (h : s.OnlyBowl t b) (p : PortId) (q : Port) :
    s.OnlyBowl (t.setPort p q) b :=
  h.trans ⟨rfl, rfl, rfl, fun _ => rfl, fun _ => rfl, rfl, rfl, rfl, rfl, rfl, fun _ => rfl, fun _ _ h => h,
    fun _ _ _ => rfl⟩

/-- The frame of a command of bowl `b`: the bowl changes alone, and no port but the one a request came by. -/
def Framed (i : Instr) (b : BowlId) (s t : State) : Prop :=
  s.OnlyBowl t b ∧
    ∀ p, (∀ code x params, i.requestParts = some (code, x, params) → p ≠ x.port) → t.ports.get p = s.ports.get p

/-- The frame of a request for one bowl: the bowl changes alone, and its port. -/
theorem frame_of_request {i : Instr} {code : Byte} {x : Xfer} {params : List Byte} {owner : State → Reply} {s t : State}
    {b : BowlId} (parts : i.requestParts = some (code, x, params)) (exec_eq : exec i s = takeRequest code x params owner s)
    (ho : (owner s).OfBowl s params) (hb : firstBowl params = some b) (h : exec i s = .next t) : Framed i b s t := by
  rcases takeRequest_cases (exec_eq ▸ h) with rfl | ⟨q, rfl⟩
  · exact ⟨.refl t b, fun _ _ => rfl⟩
  · have within : s.Within (owner s).state b := by
      rcases ho with unchanged | ⟨c, hc, ops⟩
      · rw [unchanged]
        exact .refl s b
      · cases hb.symm.trans hc
        exact ops.within
    refine ⟨within.toOnlyBowl.setPort _ _, fun p hp => ?_⟩
    simp [PerPort.get_set, hp _ _ _ parts, within.ports]

/-- The frame of an event of one bowl: the bowl changes alone. -/
theorem frame_of_event {i : Instr} {f : State → State} {s t : State} {b : BowlId} (effect : eventOf i = some f)
    (hb : ownBowl i = some b) (exec_eq : exec i s = whileReleased f s) (h : exec i s = .next t) : Framed i b s t := by
  have within : s.Within t b :=
    keeps_of_whileReleased (P := fun u => s.Within u b) (BowlOps.event effect hb s).within (.refl s b) (exec_eq ▸ h)
  exact ⟨within.toOnlyBowl, fun p _ => by rw [within.ports]⟩

/-- Settles O25: a request of one bowl answers within that bowl and then changes its port; an event of one bowl stays within
it. -/
theorem commandsOfOneBowlLeaveTheRest : Obligations.CommandsOfOneBowlLeaveTheRest := by
  intro i b s t hb h
  cases i with
  | start x ps => exact frame_of_request rfl rfl (answerStart_ofBowl ps s) hb h
  | manual x ps => exact frame_of_request rfl rfl (answerManual_ofBowl ps s) hb h
  | pause x ps => exact frame_of_request rfl rfl (answerPause_ofBowl ps s) hb h
  | resume x ps => exact frame_of_request rfl rfl (answerResume_ofBowl ps s) hb h
  | stop x ps => exact frame_of_request rfl rfl (answerStop_ofBowl ps s) hb h
  | skipStep x ps => exact frame_of_request rfl rfl (answerSkipStep_ofBowl ps s) hb h
  | answer x ps => exact frame_of_request rfl rfl (answerAnswer_ofBowl ps s) hb h
  | adjust x ps => exact frame_of_request rfl rfl (answerAdjust_ofBowl ps s) hb h
  | tare x ps => exact frame_of_request rfl rfl (answerTare_ofBowl ps s) hb h
  | clearFault x ps => exact frame_of_request rfl rfl (answerClearFault_ofBowl ps s) hb h
  | setBowlConfig x ps => exact frame_of_request rfl rfl (answerSetBowlConfig_ofBowl ps s) hb h
  | calibrateZero x ps => exact frame_of_request rfl rfl (answerCalibrateZero_ofBowl ps s) hb h
  | calibrateSpan x ps => exact frame_of_request rfl rfl (answerCalibrateSpan_ofBowl ps s) hb h
  | abortCalibration x ps => exact frame_of_request rfl rfl (answerAbortCalibration_ofBowl ps s) hb h
  | loadCellConversion | holdOffExpiry | temperatureConversion | relaySettleExpiry | configSettleExpiry
  | standstillTimerExpiry | stallTimerExpiry | lockTimerExpiry | rampStep | intervalPhaseChange | switchLevelChange
  | lidChange | confirmSwitchChange | switchFirstReading | timeExpiry | holdLimitExpiry | endPendingCompletion =>
    exact frame_of_event rfl hb rfl h
  | nop | getStatus | readPage | getNotices | ackNotice | setNotice | setThreshold | resetPort | openRecipe | writeStep
  | sealRecipe | discardRecipe | unloadRecipe | listRecipes | saveCalibration | setPowerCap | setArbitration | badFrame
  | unknownRequest | emptyTransfer | powerOn | resetPinAssert | resetPinRelease | autoloadComplete | tachoMeasurement
  | zeroCrossArrival | gapTimerExpiry | eepromPageWriteDone | eepromPageTimeout | portReady => cases hb

end Sys2Proof.Machine

namespace Sys2Proof.Machine

open Sys2Proof

/-! ## What the requests of the store are made of -/

/-- `st'` comes of `st` by operations of the recipe store: an allocation (R14), a LOADING entry with another written set or fault
and a record at one of its addresses (R15, R16), a seal (R16), and the removal of a recipe that no bowl uses (R21, R22). -/
inductive StoreOps : Store → Store → Prop
  | refl (st : Store) : StoreOps st st
  | allocate {st : Store} {slot n start : Nat} {free : List Extent} (id : Nat) (port : PortId) (exists_slot : slot < 8)
      (unused : st.entry slot = .free) (pos : 0 < n) (fit : firstFit st.free n = some (start, free)) :
      StoreOps st { st.setEntry slot (.loading id port start n [] none) with free := free }
  | reload {st : Store} {slot id start length : Nat} {port : PortId} {written : List Nat} {fault : Option SealFault}
      (loading : st.entry slot = .loading id port start length written fault) (written' : List Nat)
      (fault' : Option SealFault) : StoreOps st (st.setEntry slot (.loading id port start length written' fault'))
  | record {st : Store} {slot a : Nat} (covered : (st.entry slot).covers a = true) (r : Record) :
      StoreOps st { st with mem := StepMemory.write st.mem a r }
  | ready {st : Store} {slot id start length : Nat} {port : PortId} {written : List Nat} {fault : Option SealFault}
      (loading : st.entry slot = .loading id port start length written fault) (weighs : Bool) :
      StoreOps st (st.setEntry slot (.ready id start length ⟨false, false⟩ weighs))
  | discard {st : Store} {slot id start length : Nat} {port : PortId} {written : List Nat} {fault : Option SealFault}
      (loading : st.entry slot = .loading id port start length written fault) : StoreOps st (st.freeEntry slot start length)
  | unload {st : Store} {slot id start length : Nat} {weighs : Bool}
      (ready : st.entry slot = .ready id start length ⟨false, false⟩ weighs) : StoreOps st (st.freeEntry slot start length)
  | trans {st st' st'' : Store} (first : StoreOps st st') (second : StoreOps st' st'') : StoreOps st st''

/-- The lowest FREE entry is the least slot of the eight whose entry is FREE (R14). -/
theorem Store.lowestFree_eq_some {st : Store} {slot : Nat} (h : st.lowestFree = some slot) :
    slot < 8 ∧ st.entry slot = .free ∧ ∀ n, n < slot → st.entry n ≠ .free := by
  obtain ⟨hfree, hmem, hleast⟩ := List.find?_range_eq_some.mp h
  exact ⟨List.mem_range.mp hmem, by simpa using hfree, fun n hn => by simpa using hleast n hn⟩

/-- With no lowest FREE entry no entry of the eight is FREE. -/
theorem Store.lowestFree_eq_none {st : Store} (h : st.lowestFree = none) : ∀ n, n < 8 → st.entry n ≠ .free :=
  fun n hn => by simpa using List.find?_range_eq_none.mp h n hn

/-- An answer that operates the store, if at all, and leaves the bowls as they were. -/
def Reply.OfStore (r : Reply) (s : State) : Prop := StoreOps s.store r.state.store ∧ r.state.bowls = s.bowls

/-- An answer that leaves store and bowls as they were. -/
theorem Reply.ofStore_of_eq {r : Reply} {s : State} (hstore : r.state.store = s.store) (hbowls : r.state.bowls = s.bowls) :
    r.OfStore s :=
  ⟨hstore ▸ .refl _, hbowls⟩

/-- An answer with a store that operations lead to, in a state with the bowls as they were. -/
theorem Reply.ofStore_setStore {s u : State} {st : Store} {status : Status} {results : List Byte} (h : StoreOps s.store st)
    (hbowls : u.bowls = s.bowls) : (Reply.mk (u.setStore st) status results).OfStore s :=
  ⟨h, hbowls⟩

theorem refuse_ofStore (s : State) (st : Status) : (refuse s st).OfStore s := ⟨.refl _, rfl⟩

/-- A test that refuses leaves the store where it holds. -/
theorem ofStore_refuseIf {s : State} {c : Prop} [Decidable c] {st : Status} {r : Reply} (h : ¬ c → r.OfStore s) :
    (if c then refuse s st else r).OfStore s := by
  split
  · exact refuse_ofStore s st
  · rename_i hc
    exact h hc

theorem answerOpenRecipe_ofStore (port : PortId) (params : List Byte) (s : State) :
    (answerOpenRecipe port params s).OfStore s := by
  unfold answerOpenRecipe
  split
  · refine ofStore_refuseIf fun hn => ?_
    split
    · exact refuse_ofStore _ _
    · exact refuse_ofStore _ _
    · rename_i lowest fit
      obtain ⟨hslot, hfree, -⟩ := Store.lowestFree_eq_some lowest
      exact ⟨.allocate _ _ hslot hfree (by omega) fit, rfl⟩
  · exact refuse_ofStore _ _

theorem answerWriteStep_ofStore (port : PortId) (params : List Byte) (s : State) :
    (answerWriteStep port params s).OfStore s := by
  unfold answerWriteStep
  split
  · rename_i ps pi bytes
    refine ofStore_refuseIf fun hsize => ?_
    split
    · rename_i loading
      refine ofStore_refuseIf fun _ => ofStore_refuseIf fun hindex => ?_
      split
      · refine ⟨(StoreOps.reload loading _ _).trans (.record (slot := ps.toNat) ?_ _), rfl⟩
        rw [Store.entry_setEntry _ _ _ _ (by omega), if_pos rfl]
        simp only [Entry.covers, Extent.covers_iff]
        omega
      · exact refuse_ofStore _ _
    · exact refuse_ofStore _ _
    · exact refuse_ofStore _ _
  · exact refuse_ofStore _ _

theorem answerSealRecipe_ofStore (port : PortId) (params : List Byte) (s : State) :
    (answerSealRecipe port params s).OfStore s := by
  unfold answerSealRecipe
  split
  · refine ofStore_refuseIf fun _ => ?_
    split
    · rename_i loading
      refine ofStore_refuseIf fun _ => ?_
      dsimp only
      split
      · exact ⟨.ready loading _, rfl⟩
      · exact ⟨.reload loading _ _, rfl⟩
    · exact refuse_ofStore _ _
    · exact refuse_ofStore _ _
  · exact refuse_ofStore _ _

theorem answerDiscardRecipe_ofStore (port : PortId) (params : List Byte) (s : State) :
    (answerDiscardRecipe port params s).OfStore s := by
  unfold answerDiscardRecipe
  split
  · refine ofStore_refuseIf fun _ => ?_
    split
    · rename_i loading
      exact ofStore_refuseIf fun _ => ⟨.discard loading, rfl⟩
    · exact refuse_ofStore _ _
    · exact refuse_ofStore _ _
  · exact refuse_ofStore _ _

theorem answerUnloadRecipe_ofStore (params : List Byte) (s : State) : (answerUnloadRecipe params s).OfStore s := by
  unfold answerUnloadRecipe
  split
  · refine ofStore_refuseIf fun _ => ?_
    split
    · rename_i id start length users weighs ready
      refine ofStore_refuseIf fun unused => ⟨.unload (id := id) (weighs := weighs) ?_, rfl⟩
      obtain ⟨one, two⟩ := users
      simp only [Bool.not_eq_true, not_or] at unused
      rw [ready, unused.1, unused.2]
    · exact refuse_ofStore _ _
    · exact refuse_ofStore _ _
  · exact refuse_ofStore _ _

/-- A slot of a port discarded is an operation of the store, or nothing. -/
theorem StoreOps.discardOwned (st : Store) (port : PortId) (slot : Nat) : StoreOps st (st.discardOwned port slot) := by
  unfold Store.discardOwned
  split
  · rename_i loading
    split
    · exact .discard loading
    · exact .refl st
  · exact .refl st
  · exact .refl st

/-- Every LOADING recipe of a port discarded (R23). -/
theorem StoreOps.discardAll (st : Store) (port : PortId) : StoreOps st (st.discardAll port) := by
  unfold Store.discardAll
  generalize List.range 8 = slots
  induction slots generalizing st with
  | nil => exact .refl st
  | cons slot rest ih => exact (StoreOps.discardOwned st port slot).trans (ih _)

/-- A request for a bowl whose answer leaves the bowls as they were. -/
theorem withBowl_ofStore {pb : Byte} {s : State} {f : BowlId → Reply} (h : ∀ b, (f b).OfStore s) :
    (withBowl pb s f).OfStore s := by
  unfold withBowl
  split
  · exact h _
  · exact refuse_ofStore _ _

theorem answerNop_ofStore (params : List Byte) (s : State) : (answerNop params s).OfStore s := by
  unfold answerNop
  split
  · exact Reply.ofStore_of_eq rfl rfl
  · exact refuse_ofStore _ _

theorem answerGetStatus_ofStore (params : List Byte) (s : State) : (answerGetStatus params s).OfStore s := by
  unfold answerGetStatus
  split
  · exact withBowl_ofStore fun b => Reply.ofStore_of_eq rfl rfl
  · exact refuse_ofStore _ _

theorem answerReadPage_ofStore (params : List Byte) (s : State) : (answerReadPage params s).OfStore s := by
  unfold answerReadPage
  split
  · refine withBowl_ofStore fun b => ?_
    split <;> exact Reply.ofStore_of_eq rfl rfl
  · exact refuse_ofStore _ _

theorem answerGetNotices_ofStore (port : PortId) (params : List Byte) (s : State) :
    (answerGetNotices port params s).OfStore s := by
  unfold answerGetNotices
  split
  · exact Reply.ofStore_of_eq rfl rfl
  · exact refuse_ofStore _ _

theorem answerAckNotice_ofStore (port : PortId) (params : List Byte) (s : State) :
    (answerAckNotice port params s).OfStore s := by
  unfold answerAckNotice
  split
  · exact ofStore_refuseIf fun _ => Reply.ofStore_of_eq rfl rfl
  · exact refuse_ofStore _ _

theorem answerSetNotice_ofStore (port : PortId) (params : List Byte) (s : State) :
    (answerSetNotice port params s).OfStore s := by
  unfold answerSetNotice
  split
  · exact ofStore_refuseIf fun _ => Reply.ofStore_of_eq rfl rfl
  · exact refuse_ofStore _ _

theorem answerSetThreshold_ofStore (port : PortId) (params : List Byte) (s : State) :
    (answerSetThreshold port params s).OfStore s := by
  unfold answerSetThreshold
  split
  · exact ofStore_refuseIf fun _ => Reply.ofStore_of_eq rfl rfl
  · exact refuse_ofStore _ _

theorem answerResetPort_ofStore (port : PortId) (params : List Byte) (s : State) :
    (answerResetPort port params s).OfStore s := by
  unfold answerResetPort
  split
  · exact Reply.ofStore_setStore (.discardAll s.store port) rfl
  · exact refuse_ofStore _ _

theorem answerListRecipes_ofStore (params : List Byte) (s : State) : (answerListRecipes params s).OfStore s := by
  unfold answerListRecipes
  split
  · exact Reply.ofStore_of_eq rfl rfl
  · exact refuse_ofStore _ _

theorem answerSaveCalibration_ofStore (params : List Byte) (s : State) : (answerSaveCalibration params s).OfStore s := by
  unfold answerSaveCalibration
  split
  · exact ofStore_refuseIf fun _ => Reply.ofStore_of_eq rfl rfl
  · exact refuse_ofStore _ _

theorem answerSetPowerCap_ofStore (params : List Byte) (s : State) : (answerSetPowerCap params s).OfStore s := by
  unfold answerSetPowerCap
  split
  · exact ofStore_refuseIf fun _ => Reply.ofStore_of_eq rfl rfl
  · exact refuse_ofStore _ _

theorem answerSetArbitration_ofStore (params : List Byte) (s : State) : (answerSetArbitration params s).OfStore s := by
  unfold answerSetArbitration
  split
  · split <;> exact Reply.ofStore_of_eq rfl rfl
  · exact refuse_ofStore _ _

/-- Every answer of an owner operates one bowl or the store, or leaves both as they were. -/
theorem ownerOf_cases {code : Nat} {port : PortId} {params : List Byte} {owner : State → Reply}
    (h : ownerOf code port params = some owner) (s : State) : (owner s).OfBowl s params ∨ (owner s).OfStore s := by
  unfold ownerOf at h
  split at h <;> cases h
  · exact .inr (answerNop_ofStore _ _)
  · exact .inr (answerGetStatus_ofStore _ _)
  · exact .inr (answerReadPage_ofStore _ _)
  · exact .inr (answerGetNotices_ofStore _ _ _)
  · exact .inr (answerAckNotice_ofStore _ _ _)
  · exact .inr (answerSetNotice_ofStore _ _ _)
  · exact .inr (answerSetThreshold_ofStore _ _ _)
  · exact .inr (answerResetPort_ofStore _ _ _)
  · exact .inr (answerOpenRecipe_ofStore _ _ _)
  · exact .inr (answerWriteStep_ofStore _ _ _)
  · exact .inr (answerSealRecipe_ofStore _ _ _)
  · exact .inr (answerDiscardRecipe_ofStore _ _ _)
  · exact .inr (answerUnloadRecipe_ofStore _ _)
  · exact .inr (answerListRecipes_ofStore _ _)
  · exact .inl (answerStart_ofBowl _ _)
  · exact .inl (answerManual_ofBowl _ _)
  · exact .inl (answerPause_ofBowl _ _)
  · exact .inl (answerResume_ofBowl _ _)
  · exact .inl (answerStop_ofBowl _ _)
  · exact .inl (answerSkipStep_ofBowl _ _)
  · exact .inl (answerAnswer_ofBowl _ _)
  · exact .inl (answerAdjust_ofBowl _ _)
  · exact .inl (answerTare_ofBowl _ _)
  · exact .inl (answerClearFault_ofBowl _ _)
  · exact .inl (answerSetBowlConfig_ofBowl _ _)
  · exact .inl (answerCalibrateZero_ofBowl _ _)
  · exact .inl (answerCalibrateSpan_ofBowl _ _)
  · exact .inl (answerAbortCalibration_ofBowl _ _)
  · exact .inr (answerSaveCalibration_ofStore _ _)
  · exact .inr (answerSetPowerCap_ofStore _ _)
  · exact .inr (answerSetArbitration_ofStore _ _)

/-! ## What is kept by bowls and store -/

/-- A run goes on through a millisecond of its clock. -/
theorem RunContext.goesOn_tick (r : RunContext) : r.GoesOn r.tick := by
  unfold RunContext.tick
  split
  · exact ⟨rfl, id⟩
  · split <;> exact ⟨rfl, id⟩
  · exact ⟨rfl, id⟩
  · exact ⟨rfl, id⟩
  · exact ⟨rfl, id⟩
  · exact ⟨rfl, id⟩

/-- A property of the bowls and the store that their operations and a restart keep. -/
structure KeptByBlocks (P : State → Prop) : Prop where
  bowl : ∀ {b : BowlId} {s t : State}, BowlOps b s t → P s → P t
  store : ∀ {s t : State}, StoreOps s.store t.store → t.bowls = s.bowls → P s → P t
  restart : ∀ (s : State) r, P (s.restart r)

namespace KeptByBlocks

variable {P : State → Prop}

/-- What is outside the bowls and the store has no part in it. -/
theorem shared (k : KeptByBlocks P) {s t : State} (hs : P s) (hstore : t.store = s.store) (hbowls : t.bowls = s.bowls) :
    P t :=
  k.store (hstore ▸ .refl _) hbowls hs

/-- Both bowls changed, their runs going on. -/
theorem bowls (k : KeptByBlocks P) {s t : State} (hs : P s) (hstore : t.store = s.store)
    (one : s.bowls.one.run.GoesOn t.bowls.one.run) (two : s.bowls.two.run.GoesOn t.bowls.two.run) : P t :=
  k.shared (s := (s.setBowl .one t.bowls.one).setBowl .two t.bowls.two)
    (k.bowl (.setBowl _ .two _ two) (k.bowl (.setBowl s .one _ one) hs)) hstore rfl

theorem endAutoload (k : KeptByBlocks P) {s : State} (hs : P s) (r : AutoloadRead) : P (s.endAutoload r) := by
  unfold State.endAutoload
  split
  · split
    · exact k.shared hs rfl rfl
    · split
      · exact k.bowls hs rfl ⟨rfl, id⟩ ⟨rfl, id⟩
      · exact k.shared hs rfl rfl
  · exact hs
  · exact hs
  · exact hs

theorem tacho (k : KeptByBlocks P) {s : State} (hs : P s) (b : BowlId) (pulses : Nat) : P (s.tacho b pulses) :=
  k.bowl (.putStir _ b _) (k.bowl (.setWeigh _ .two _) (k.bowl (.setWeigh s .one _) hs))

theorem raise (k : KeptByBlocks P) {s : State} (hs : P s) (c : Cause) : P (s.raise c) := k.shared hs rfl rfl

theorem windowStart (k : KeptByBlocks P) {s : State} (hs : P s) : P s.windowStart := by
  have recorded : P { s with arbiter := s.arbiter.record s.nextAccount } := k.shared hs rfl rfl
  have handed := k.bowl (.handResults _ .two s.nextAccount) (k.bowl (.handResults _ .one s.nextAccount) recorded)
  simp only [State.windowStart]
  split
  · exact k.raise handed _
  · exact handed

theorem handPosition (k : KeptByBlocks P) {s : State} (hs : P s) (p : Nat) : P (s.handPosition p) :=
  k.bowl (.setHeat _ .two _) (k.bowl (.setHeat s .one _) hs)

theorem zeroCross (k : KeptByBlocks P) {s : State} (hs : P s) (since : Nat) : P (s.zeroCross since) := by
  have arbiter (x : Arbiter) : P { s with arbiter := x } := k.shared hs rfl rfl
  unfold State.zeroCross
  split
  · simp only [State.halfCycle]
    split
    · split
      · exact k.handPosition (k.windowStart (arbiter _)) 0
      · exact k.handPosition (arbiter _) _
    · exact k.handPosition (k.windowStart (arbiter _)) 0
  · simp only [State.restorationCross]
    split
    · exact k.raise (arbiter _) _
    · exact arbiter _

theorem mainsLoss (k : KeptByBlocks P) {s : State} (hs : P s) : P s.mainsLoss := by
  have lost : P { s with arbiter := s.arbiter.lose } := k.shared hs rfl rfl
  have units := k.bowl (.unitsLoseMains _ .two) (k.bowl (.unitsLoseMains _ .one) lost)
  exact k.raise (k.bowl (.addPause _ .two _) (k.bowl (.addPause _ .one _) units)) _

theorem gapExpiry (k : KeptByBlocks P) {s : State} (hs : P s) : P s.gapExpiry := by
  unfold State.gapExpiry
  split
  · exact k.shared hs rfl rfl
  · unfold State.gapRunOut
    split
    · exact hs
    · split
      · exact k.mainsLoss hs
      · exact k.shared hs rfl rfl

theorem pageDone (k : KeptByBlocks P) {s : State} (hs : P s) (acked : Bool) : P (s.pageDone acked) := by
  unfold State.pageDone
  split
  · exact hs
  · split
    · split <;> exact k.shared hs rfl rfl
    · exact k.shared hs rfl rfl

theorem pageTimeout (k : KeptByBlocks P) {s : State} (hs : P s) : P s.pageTimeout := by
  unfold State.pageTimeout
  split
  · exact hs
  · exact k.shared hs rfl rfl

/-- Every event keeps it. -/
theorem event (k : KeptByBlocks P) {i : Instr} {f : State → State} {s : State} (effect : eventOf i = some f) (hs : P s) :
    P (f s) := by
  cases hb : ownBowl i with
  | some b => exact k.bowl (BowlOps.event effect hb s) hs
  | none =>
    cases i with
    | autoloadComplete r => cases effect; exact k.endAutoload hs r
    | tachoMeasurement b pulses => cases effect; exact k.tacho hs b pulses
    | zeroCrossArrival since => cases effect; exact k.zeroCross hs since
    | gapTimerExpiry => cases effect; exact k.gapExpiry hs
    | eepromPageWriteDone acked => cases effect; exact k.pageDone hs acked
    | eepromPageTimeout => cases effect; exact k.pageTimeout hs
    | portReady p => cases effect; exact k.shared hs rfl rfl
    | loadCellConversion | holdOffExpiry | temperatureConversion | relaySettleExpiry | configSettleExpiry
    | standstillTimerExpiry | stallTimerExpiry | lockTimerExpiry | rampStep | intervalPhaseChange | switchLevelChange
    | lidChange | confirmSwitchChange | switchFirstReading | timeExpiry | holdLimitExpiry | endPendingCompletion => cases hb
    | nop | getStatus | readPage | getNotices | ackNotice | setNotice | setThreshold | resetPort | openRecipe | writeStep
    | sealRecipe | discardRecipe | unloadRecipe | listRecipes | start | manual | pause | resume | stop | skipStep | answer
    | adjust | tare | clearFault | setBowlConfig | calibrateZero | calibrateSpan | abortCalibration | saveCalibration
    | setPowerCap | setArbitration | badFrame | unknownRequest | emptyTransfer | powerOn | resetPinAssert | resetPinRelease =>
      cases effect

/-- An answer of one bowl keeps it. -/
theorem ofBowl (k : KeptByBlocks P) {s : State} (hs : P s) {r : Reply} {params : List Byte} (h : r.OfBowl s params) :
    P r.state := by
  rcases h with unchanged | ⟨b, -, ops⟩
  · exact unchanged ▸ hs
  · exact k.bowl ops hs

/-- An answer of the store keeps it. -/
theorem ofStore (k : KeptByBlocks P) {s : State} (hs : P s) {r : Reply} (h : r.OfStore s) : P r.state :=
  k.store h.1 h.2 hs

/-- Every answer of an owner keeps it. -/
theorem owner (k : KeptByBlocks P) {code : Nat} {port : PortId} {params : List Byte} {owner : State → Reply} {s : State}
    (h : ownerOf code port params = some owner) (hs : P s) : P (owner s).state := by
  rcases ownerOf_cases h s with ofBowl | ofStore
  · exact k.ofBowl hs ofBowl
  · exact k.ofStore hs ofStore

/-- A property of the bowls and the store is kept by every step. -/
theorem keptByParts (k : KeptByBlocks P) : KeptByParts P where
  port s p q hs := k.shared hs rfl rfl
  restart s r hs := k.restart s r
  owner s h hs := k.owner h hs
  event s effect hs := k.event effect hs
  queue s l hs := k.shared hs rfl rfl
  tick s hs := by
    unfold State.tick
    split
    · exact hs
    · exact k.bowls hs rfl (RunContext.goesOn_tick _) (RunContext.goesOn_tick _)

end KeptByBlocks

end Sys2Proof.Machine

namespace Sys2Proof.Machine

open Sys2Proof

/-! ## Every step keeps the store sound (R7 to R11) -/

/-- The operations of the store keep it sound. -/
theorem StoreOps.sound {st st' : Store} (h : StoreOps st st') (hs : st.Sound) : st'.Sound := by
  induction h with
  | refl => exact hs
  | allocate id port exists_slot unused pos fit =>
    refine hs.replace exists_slot (fun a => ?_) (inOrder_firstFit fit hs.inOrder) fun n hn => ?_
    · rw [unused, ← coverOf_firstFit fit a]
      rfl
    · cases hn
      exact pos
  | reload loading written' fault' =>
    have hslot := Store.lt_of_loading loading
    exact hs.setEntry hslot (by rw [loading]; rfl) (by rw [loading]; rfl)
  | @record st slot a covered r =>
    have hslot := Store.lt_of_entry_ne_free (st := st) (slot := slot) (by intro h; simp [h, Entry.covers] at covered)
    exact ⟨hs.covered, hs.apart, hs.nonempty, hs.steps, StepMemory.wf_write _ _ _ (hs.lt_of_covers hslot covered) hs.mem⟩
  | ready loading weighs =>
    have hslot := Store.lt_of_loading loading
    exact hs.setEntry hslot (by rw [loading]; rfl) (by rw [loading]; rfl)
  | discard loading =>
    have hslot := Store.lt_of_loading loading
    exact hs.freeEntry hslot (by rw [loading]; rfl) (by rw [loading]; rfl)
  | unload ready =>
    have hslot := Store.lt_of_ready ready
    exact hs.freeEntry hslot (by rw [ready]; rfl) (by rw [ready]; rfl)
  | trans _ _ ih₁ ih₂ => exact ih₂ (ih₁ hs)

/-- Soundness of the store is a matter of the store's own operations; a bowl changes user sets only. -/
theorem keptByBlocks_sound : KeptByBlocks (fun s => s.store.Sound) where
  bowl ops hs := hs.of_sameButUsers ops.within.store
  store ops _ hs := ops.sound hs
  restart _ _ := Store.Sound.initial

/-- Settles O59. -/
theorem everyStepKeepsStoreSound : Obligations.EveryStepKeepsStoreSound :=
  fun _ _ hs h => keptByBlocks_sound.keptByParts.step hs h

/-! ## Every step keeps the user sets (R13, R42) -/

/-- A slot has a user only where its entry is READY. -/
theorem Entry.ready_of_usedBy {e : Entry} {b : BowlId} (h : e.usedBy b = true) :
    ∃ id start length users weighs, e = .ready id start length users weighs := by
  cases e with
  | free => cases h
  | loading => cases h
  | ready id start length users weighs => exact ⟨id, start, length, users, weighs, rfl⟩

/-- The user sets after an entry of the eight is replaced. -/
theorem Store.usedBy_setEntry (st : Store) {slot : Nat} (hslot : slot < 8) (e : Entry) (n : Nat) (b : BowlId) :
    ((st.setEntry slot e).entry n).usedBy b = if n = slot then e.usedBy b else (st.entry n).usedBy b := by
  rw [Store.entry_setEntry _ _ _ _ hslot]
  split <;> rfl

/-- An entry replaced by one with the same users keeps every user set. -/
theorem Store.usedBy_setEntry_same (st : Store) {slot : Nat} (hslot : slot < 8) {e : Entry}
    (h : ∀ b, e.usedBy b = (st.entry slot).usedBy b) (n : Nat) (b : BowlId) :
    ((st.setEntry slot e).entry n).usedBy b = (st.entry n).usedBy b := by
  rw [st.usedBy_setEntry hslot]
  split
  · subst_vars
    exact h b
  · rfl

/-- The operations of the store change no user set: a recipe that a bowl uses is not among those they make or remove. -/
theorem StoreOps.usedBy {st st' : Store} (h : StoreOps st st') (n : Nat) (b : BowlId) :
    (st'.entry n).usedBy b = (st.entry n).usedBy b := by
  induction h with
  | refl => rfl
  | @allocate st slot _ _ _ id port exists_slot unused pos fit =>
    exact st.usedBy_setEntry_same exists_slot (fun c => by rw [unused]; rfl) n b
  | @reload st slot _ _ _ _ _ _ loading written' fault' =>
    have hslot := Store.lt_of_loading loading
    exact st.usedBy_setEntry_same hslot (fun c => by rw [loading]; rfl) n b
  | record => rfl
  | @ready st slot _ _ _ _ _ _ loading weighs =>
    have hslot := Store.lt_of_loading loading
    exact st.usedBy_setEntry_same hslot (fun c => by rw [loading]; cases c <;> rfl) n b
  | @discard st slot _ _ _ _ _ _ loading =>
    have hslot := Store.lt_of_loading loading
    exact st.usedBy_setEntry_same hslot (fun c => by rw [loading]; rfl) n b
  | @unload st slot _ _ _ _ ready =>
    have hslot := Store.lt_of_ready ready
    exact st.usedBy_setEntry_same hslot (fun c => by rw [ready]; cases c <;> rfl) n b
  | trans _ _ ih₁ ih₂ => exact ih₂.trans ih₁

/-- The user sets of bowl `b` after its membership of a READY slot changes. -/
theorem State.usedBy_setUser {s : State} {slot id start length : Nat} {users : PerBowl Bool} {weighs : Bool}
    (ready : s.store.entry slot = .ready id start length users weighs) (b : BowlId) (member : Bool) (n : Nat) :
    ((s.setUser slot b member).store.entry n).usedBy b = if n = slot then member else (s.store.entry n).usedBy b := by
  have hslot := Store.lt_of_ready ready
  have joined : (Entry.ready id start length (users.set b member) weighs).usedBy b = member := PerBowl.get_set_same _ _ _
  simp only [State.setUser, ready, State.setStore_store, Store.usedBy_setEntry _ hslot, joined]

@[simp] theorem State.bowl_setUser (s : State) (slot : Nat) (b c : BowlId) (member : Bool) :
    (s.setUser slot b member).bowl c = s.bowl c := by
  unfold State.setUser
  split <;> rfl

/-- The user sets match the run of one bowl: those that contain it are its run source's, and at rest it has no run source. -/
structure State.UserMatches (s : State) (b : BowlId) : Prop where
  users : ∀ n, (s.bowl b).run.source = .slot n ↔ (s.store.entry n).usedBy b = true
  rest : (s.bowl b).run.AtRest → (s.bowl b).run.source = .noRun

theorem State.usersMatch_iff (s : State) : s.UsersMatch ↔ ∀ b, s.UserMatches b :=
  ⟨fun h b => ⟨h.1 b, h.2 b⟩, fun h => ⟨fun b => (h b).users, fun b => (h b).rest⟩⟩

/-- In a bowl at rest no user set contains it. -/
theorem State.UserMatches.unused {s : State} {b : BowlId} (h : s.UserMatches b) (hr : (s.bowl b).run.AtRest) (n : Nat) :
    (s.store.entry n).usedBy b = false := by
  rw [← Bool.not_eq_true, ← h.users n, h.rest hr]
  exact RunSource.noConfusion

/-- The operations of a bowl keep its own user sets matched. -/
theorem BowlOps.userMatches {b : BowlId} {s t : State} (ops : BowlOps b s t) (h : s.UserMatches b) : t.UserMatches b := by
  induction ops with
  | blocks x goesOn =>
    refine ⟨fun n => ?_, fun hr => ?_⟩
    · rw [State.bowl_setBowl, goesOn.1]
      exact h.users n
    · rw [State.bowl_setBowl] at hr ⊢
      rw [goesOn.1]
      exact h.rest (goesOn.2 hr)
  | raise => exact ⟨h.users, h.rest⟩
  | join r ready idle source active =>
    refine ⟨fun n => ?_, fun hr => ?_⟩
    · rw [State.setRun_store, State.usedBy_setUser ready, h.unused (.inl idle)]
      simp [source, eq_comm]
    · exact absurd (by simpa using hr) active
  | manual r idle source active =>
    refine ⟨fun n => ?_, fun hr => ?_⟩
    · rw [State.setRun_store, h.unused (.inl idle)]
      simp [source]
    · exact absurd (by simpa using hr) active
  | @leave s r source =>
    refine ⟨fun n => ?_, fun _ => by simpa using source⟩
    have left : ((s.leaveSlot b).store.entry n).usedBy b = false := by
      unfold State.leaveSlot
      split
      · rename_i slot running
        obtain ⟨_, _, _, _, _, ready⟩ := Entry.ready_of_usedBy ((h.users slot).mp running)
        rw [State.usedBy_setUser ready]
        split
        · rfl
        · rename_i hne
          rw [← Bool.not_eq_true, ← h.users n, running]
          simpa using Ne.symm hne
      · rename_i running
        rw [← Bool.not_eq_true, ← h.users n, running]
        exact RunSource.noConfusion
      · rename_i running
        rw [← Bool.not_eq_true, ← h.users n, running]
        exact RunSource.noConfusion
    rw [State.setRun_store, left]
    simp [source]
  | trans _ _ ih₁ ih₂ => exact ih₂ (ih₁ h)

/-- The user sets match the runs through the operations of either bowl, which leave the other bowl and its user sets alone, and
through those of the store. -/
theorem keptByBlocks_usersMatch : KeptByBlocks State.UsersMatch where
  bowl {b s t} ops hs := by
    rw [State.usersMatch_iff] at hs ⊢
    intro c
    rcases eq_or_otherBowl b c with rfl | rfl
    · exact ops.userMatches (hs c)
    · have within := ops.within
      refine ⟨fun n => ?_, fun hr => ?_⟩
      · rw [within.other, within.users n]
        exact (hs _).users n
      · rw [within.other] at hr ⊢
        exact (hs _).rest hr
  store {s t} ops hbowls hs := by
    have hbowl (b : BowlId) : t.bowl b = s.bowl b := by rw [State.bowl, hbowls, State.bowl]
    refine ⟨fun b n => ?_, fun b => ?_⟩
    · rw [hbowl, ops.usedBy]
      exact hs.1 b n
    · rw [hbowl]
      exact hs.2 b
  restart s r := by
    refine ⟨fun b n => ?_, fun b _ => by cases b <;> rfl⟩
    have hentry : (s.restart r).store.entry n = .free := Store.entry_initial n
    rw [hentry]
    cases b <;> simp [State.restart, State.reset, State.bowl, PerBowl.get, Bowl.initial, RunContext.initial, Entry.usedBy]

/-- Settles O60. -/
theorem everyStepKeepsUsersMatch : Obligations.EveryStepKeepsUsersMatch :=
  fun _ _ hs h => keptByBlocks_usersMatch.keptByParts.step hs h

end Sys2Proof.Machine

namespace Sys2Proof.Machine

open Sys2Proof

/-! ## The requests of the store, one by one (R14 to R16, R21 to R23) -/

/-- A request that its port takes, by what its owner answers. -/
theorem exec_answered {i : Instr} {code : Byte} {x : Xfer} {params : List Byte} {owner : State → Reply} {s u : State}
    {status : Status} {results : List Byte} (exec_eq : exec i s = takeRequest code x params owner s) (ht : s.takes x.port)
    (answer : owner s = ⟨u, status, results⟩) (ports : u.ports = s.ports) :
    exec i s = .next (u.answered x params status results) := by
  rw [exec_eq, takeRequest_answered _ _ _ _ _ ht (by rw [answer]; exact ports), answer]

/-- A request that its port takes and its owner refuses. -/
theorem exec_refused {i : Instr} {code : Byte} {x : Xfer} {params : List Byte} {owner : State → Reply} {s : State}
    {status : Status} (exec_eq : exec i s = takeRequest code x params owner s) (ht : s.takes x.port)
    (answer : owner s = refuse s status) : exec i s = .next (s.answered x params status []) :=
  exec_answered exec_eq ht answer rfl

theorem beNat_pair (a b : Byte) : beNat [a, b] = 256 * a.toNat + b.toNat := by simp [beNat]

theorem u8_bit (c : Bool) : u8 (bit c) = [if c then 1 else 0] := by cases c <;> rfl

/-! ### OPEN_RECIPE -/

section OpenRecipe

variable {port : PortId} {i1 i0 pl : Byte} {s : State}

theorem answerOpenRecipe_badParam (h : pl.toNat < 1 ∨ 128 < pl.toNat) :
    answerOpenRecipe port [i1, i0, pl] s = refuse s .badParam :=
  if_pos h

theorem answerOpenRecipe_noSlot (h1 : 1 ≤ pl.toNat) (h128 : pl.toNat ≤ 128) (hslot : s.store.lowestFree = none) :
    answerOpenRecipe port [i1, i0, pl] s = refuse s .noSlot := by
  simp only [answerOpenRecipe, if_neg (show ¬ (pl.toNat < 1 ∨ 128 < pl.toNat) by omega), hslot]

theorem answerOpenRecipe_noSpace (h1 : 1 ≤ pl.toNat) (h128 : pl.toNat ≤ 128) {slot : Nat}
    (hslot : s.store.lowestFree = some slot) (hfit : firstFit s.store.free pl.toNat = none) :
    answerOpenRecipe port [i1, i0, pl] s = refuse s .noSpace := by
  simp only [answerOpenRecipe, if_neg (show ¬ (pl.toNat < 1 ∨ 128 < pl.toNat) by omega), hslot, hfit]

theorem answerOpenRecipe_ok (h1 : 1 ≤ pl.toNat) (h128 : pl.toNat ≤ 128) {slot start : Nat} {free : List Extent}
    (hslot : s.store.lowestFree = some slot) (hfit : firstFit s.store.free pl.toNat = some (start, free)) :
    answerOpenRecipe port [i1, i0, pl] s =
      ⟨s.setStore
        { s.store.setEntry slot (.loading (256 * i1.toNat + i0.toNat) port start pl.toNat [] none) with free := free },
        .ok, [BitVec.ofNat 8 slot, BitVec.ofNat 8 start]⟩ := by
  simp only [answerOpenRecipe, if_neg (show ¬ (pl.toNat < 1 ∨ 128 < pl.toNat) by omega), hslot, hfit, beNat_pair]
  rfl

end OpenRecipe

/-- Settles O9. -/
theorem openRecipeAllocatesFirstFit : Obligations.OpenRecipeAllocatesFirstFit := by
  refine ⟨fun x i1 i0 pl s ht => ⟨fun h => ?_, fun h1 h128 hslot => ?_, fun h1 h128 hslot hfit => ?_,
    fun slot start free h1 h128 hslot hfit => ?_⟩, fun st => ?_, fun free n => ?_⟩
  · exact exec_refused rfl ht (answerOpenRecipe_badParam h)
  · exact exec_refused rfl ht (answerOpenRecipe_noSlot h1 h128 hslot)
  · obtain ⟨slot, hslot⟩ := Option.isSome_iff_exists.mp hslot
    exact exec_refused rfl ht (answerOpenRecipe_noSpace h1 h128 hslot hfit)
  · exact exec_answered rfl ht (answerOpenRecipe_ok h1 h128 hslot hfit) rfl
  · split
    · exact Store.lowestFree_eq_none ‹_›
    · exact Store.lowestFree_eq_some ‹_›
  · split
    · exact firstFit_eq_none ‹_›
    · exact firstFit_eq_some ‹_›

/-! ### WRITE_STEP -/

theorem answerWriteStep_ok {ps pi : Byte} {bytes : List Byte} {s : State} {id start length : Nat} {port : PortId}
    {written : List Nat} {fault : Option SealFault} (hslot : ps.toNat < 8) (hsize : bytes.length = 22)
    (loading : s.store.entry ps.toNat = .loading id port start length written fault) (hindex : pi.toNat < length)
    (hrecord : recordOk (recordOfBytes bytes) = true) :
    answerWriteStep port (ps :: pi :: bytes) s =
      ⟨s.setStore
        { s.store.setEntry ps.toNat (.loading id port start length (addIndex written pi.toNat) fault) with
          mem := StepMemory.write s.store.mem (start + pi.toNat) (recordOfBytes bytes) },
        .ok, [BitVec.ofNat 8 (addIndex written pi.toNat).length]⟩ := by
  simp only [answerWriteStep, if_neg (show ¬ (bytes.length ≠ 22 ∨ 8 ≤ ps.toNat) by omega), loading, ne_eq, not_true,
    if_false, if_neg (show ¬ length ≤ pi.toNat by omega), hrecord, if_true]
  rfl

/-- The records that step addresses hold after a write, the rest of the store being any (R7). -/
theorem State.recordAt_write {s t : State} {a : Nat} {r : Record} (hmem : t.store.mem = StepMemory.write s.store.mem a r)
    (hresets : t.resets = s.resets) (a' : Nat) : t.recordAt a' = if a' = a then r else s.recordAt a' := by
  rw [State.recordAt, hmem, StepMemory.read_write, hresets, State.recordAt]
  split <;> rfl

/-- Settles O10. -/
theorem writeStepStoresRecord : Obligations.WriteStepStoresRecord := by
  intro x ps pi bytes s id start length written fault ht hslot hsize loading hindex hrecord
  exact ⟨_, exec_answered rfl ht (answerWriteStep_ok hslot hsize loading hindex hrecord) rfl,
    State.recordAt_write rfl rfl, rfl, rfl, rfl, rfl, rfl, rfl, rfl⟩

/-! ### SEAL_RECIPE -/

/-- The fault reported is at the lowest faulty index, and the first of that index (R20). -/
theorem firstFault_eq_some {written : List Nat} {w : LoopWalk} {length i : Nat} {steps : List Step} {f : SealFault}
    (h : firstFault written w length steps i = some f) :
    ∃ k st, f.index = i + k ∧ steps[k]? = some st ∧ faultAt written w length f.index st = some f.reason ∧
      ∀ j st, j < k → steps[j]? = some st → faultAt written w length (i + j) st = none := by
  induction steps generalizing i with
  | nil => cases h
  | cons st rest ih =>
    simp only [firstFault] at h
    split at h
    · rename_i reason hfault
      cases h
      exact ⟨0, st, rfl, rfl, hfault, fun j _ hj => absurd hj (Nat.not_lt_zero j)⟩
    · rename_i hnone
      obtain ⟨k, st', hindex, hst', hfault, hleast⟩ := ih h
      refine ⟨k + 1, st', by omega, hst', hfault, fun j stj hj hstj => ?_⟩
      cases j with
      | zero =>
        cases hstj
        exact hnone
      | succ j =>
        rw [show i + (j + 1) = i + 1 + j by omega]
        exact hleast j stj (by omega) hstj

/-- With no fault reported there is none at any index. -/
theorem firstFault_eq_none {written : List Nat} {w : LoopWalk} {length i : Nat} {steps : List Step}
    (h : firstFault written w length steps i = none) :
    ∀ j st, steps[j]? = some st → faultAt written w length (i + j) st = none := by
  induction steps generalizing i with
  | nil => simp
  | cons st rest ih =>
    simp only [firstFault] at h
    split at h
    · cases h
    · rename_i hnone
      intro j stj hstj
      cases j with
      | zero =>
        cases hstj
        exact hnone
      | succ j =>
        rw [show i + (j + 1) = i + 1 + j by omega]
        exact ih h j stj hstj

section SealRecipe

variable {ps : Byte} {s : State} {id start length : Nat} {port : PortId} {written : List Nat} {fault : Option SealFault}

theorem answerSealRecipe_ok (hslot : ps.toNat < 8)
    (loading : s.store.entry ps.toNat = .loading id port start length written fault)
    (hvalid : validate written (s.loadingSteps start length written) = none) :
    let weighs := (s.loadingSteps start length written).any (fun st => st.weigh.isSome)
    answerSealRecipe port [ps] s =
      ⟨s.setStore (s.store.setEntry ps.toNat (.ready id start length ⟨false, false⟩ weighs)), .ok,
        [if weighs then 1 else 0]⟩ := by
  simp only [answerSealRecipe, if_neg (show ¬ 8 ≤ ps.toNat by omega), loading, ne_eq, not_true, if_false, hvalid, u8_bit]

theorem answerSealRecipe_fault (hslot : ps.toNat < 8)
    (loading : s.store.entry ps.toNat = .loading id port start length written fault) {f : SealFault}
    (hfault : validate written (s.loadingSteps start length written) = some f) :
    answerSealRecipe port [ps] s =
      ⟨s.setStore (s.store.setEntry ps.toNat (.loading id port start length written (some f))), .invalidRecipe,
        [BitVec.ofNat 8 f.index, BitVec.ofNat 8 f.reason.code]⟩ := by
  simp only [answerSealRecipe, if_neg (show ¬ 8 ≤ ps.toNat by omega), loading, ne_eq, not_true, if_false, hfault]
  rfl

end SealRecipe

/-- Settles O11. -/
theorem sealRecipeReportsLowestFault : Obligations.SealRecipeReportsLowestFault := by
  refine ⟨fun x ps s id start length written fault ht hslot loading => ⟨fun hvalid => ?_, fun f hfault => ?_⟩,
    fun written steps => ⟨fun f hfault => ?_, fun hvalid j st hst => ?_⟩⟩
  · exact exec_answered rfl ht (answerSealRecipe_ok hslot loading hvalid) rfl
  · exact exec_answered rfl ht (answerSealRecipe_fault hslot loading hfault) rfl
  · obtain ⟨k, st, hindex, hst, hreason, hleast⟩ := firstFault_eq_some hfault
    rw [Nat.zero_add] at hindex
    subst hindex
    exact ⟨⟨st, hst, hreason⟩, fun j stj hj hstj => by simpa using hleast j stj hj hstj⟩
  · simpa using firstFault_eq_none hvalid j st hst

/-! ### DISCARD_RECIPE and UNLOAD_RECIPE -/

section Removal

variable {ps : Byte} {s : State} {id start length : Nat}

theorem answerDiscardRecipe_ok {port : PortId} {written : List Nat} {fault : Option SealFault} (hslot : ps.toNat < 8)
    (loading : s.store.entry ps.toNat = .loading id port start length written fault) :
    answerDiscardRecipe port [ps] s = ⟨s.setStore (s.store.freeEntry ps.toNat start length), .ok, []⟩ := by
  simp only [answerDiscardRecipe, if_neg (show ¬ 8 ≤ ps.toNat by omega), loading, ne_eq, not_true, if_false]

theorem answerUnloadRecipe_ok {weighs : Bool} (hslot : ps.toNat < 8)
    (ready : s.store.entry ps.toNat = .ready id start length ⟨false, false⟩ weighs) :
    answerUnloadRecipe [ps] s = ⟨s.setStore (s.store.freeEntry ps.toNat start length), .ok, []⟩ := by
  simp [answerUnloadRecipe, if_neg (show ¬ 8 ≤ ps.toNat by omega), ready]

theorem answerUnloadRecipe_inUse {users : PerBowl Bool} {weighs : Bool} (hslot : ps.toNat < 8)
    (ready : s.store.entry ps.toNat = .ready id start length users weighs) (used : users.one ∨ users.two) :
    answerUnloadRecipe [ps] s = refuse s .inUse := by
  simp only [answerUnloadRecipe, if_neg (show ¬ 8 ≤ ps.toNat by omega), ready, if_pos used]

end Removal

/-- Settles O12. -/
theorem recipesRemoved : Obligations.RecipesRemoved := by
  intro x ps s id start length ht hslot
  exact ⟨fun written fault loading => exec_answered rfl ht (answerDiscardRecipe_ok hslot loading) rfl,
    fun weighs ready => exec_answered rfl ht (answerUnloadRecipe_ok hslot ready) rfl,
    fun users weighs ready used => exec_refused rfl ht (answerUnloadRecipe_inUse hslot ready used)⟩

/-! ### RESET_PORT -/

/-- An entry after the LOADING recipes of a port are discarded (R23). -/
def Entry.withoutOwner (port : PortId) (e : Entry) : Entry :=
  match e with
  | .loading id owner start length written fault =>
    if owner = port then .free else .loading id owner start length written fault
  | .ready id start length users weighs => .ready id start length users weighs
  | .free => .free

theorem Entry.withoutOwner_idem (port : PortId) (e : Entry) :
    (e.withoutOwner port).withoutOwner port = e.withoutOwner port := by
  cases e with
  | free => rfl
  | ready => rfl
  | loading id owner =>
    by_cases h : owner = port <;> simp [Entry.withoutOwner, h]

theorem Store.entry_freeEntry (st : Store) {slot : Nat} (hslot : slot < 8) (start length n : Nat) :
    (st.freeEntry slot start length).entry n = if n = slot then .free else st.entry n :=
  st.entry_setEntry slot n .free hslot

theorem Store.entry_discardOwned (st : Store) (port : PortId) (slot n : Nat) :
    (st.discardOwned port slot).entry n = if n = slot then (st.entry n).withoutOwner port else st.entry n := by
  by_cases hn : n = slot
  · subst hn
    rw [if_pos rfl, Store.discardOwned]
    split
    · rename_i loading
      simp only [loading, Entry.withoutOwner]
      split
      · rw [Store.entry_freeEntry _ (Store.lt_of_loading loading), if_pos rfl]
      · exact loading
    · rename_i ready
      simp only [ready, Entry.withoutOwner]
    · rename_i free
      simp only [free, Entry.withoutOwner]
  · rw [if_neg hn, Store.discardOwned]
    split
    · rename_i loading
      split
      · rw [Store.entry_freeEntry _ (Store.lt_of_loading loading), if_neg hn]
      · rfl
    · rfl
    · rfl

/-- The entries after the LOADING recipes of a port are discarded, slot by slot. -/
theorem Store.entry_foldl_discardOwned (slots : List Nat) (st : Store) (port : PortId) (n : Nat) :
    (slots.foldl (fun st slot => st.discardOwned port slot) st).entry n =
      if n ∈ slots then (st.entry n).withoutOwner port else st.entry n := by
  induction slots generalizing st with
  | nil => simp
  | cons slot rest ih =>
    rw [List.foldl_cons, ih, Store.entry_discardOwned]
    by_cases hn : n = slot <;> by_cases hr : n ∈ rest <;> simp [hn, hr, Entry.withoutOwner_idem]

theorem Store.entry_discardAll (st : Store) (port : PortId) (n : Nat) :
    (st.discardAll port).entry n = (st.entry n).withoutOwner port := by
  rw [Store.discardAll, Store.entry_foldl_discardOwned]
  split
  · rfl
  · rename_i hn
    rw [st.entry_beyond n (by simpa using hn)]
    rfl

/-- Discarding writes no record. -/
theorem Store.mem_discardAll (st : Store) (port : PortId) : (st.discardAll port).mem = st.mem := by
  unfold Store.discardAll
  generalize List.range 8 = slots
  induction slots generalizing st with
  | nil => rfl
  | cons slot rest ih =>
    rw [List.foldl_cons, ih]
    unfold Store.discardOwned
    split
    · split <;> rfl
    · rfl
    · rfl

theorem answerResetPort_ok (port : PortId) (s : State) :
    answerResetPort port [] s = ⟨(s.setNotice port .initial).setStore (s.store.discardAll port), .ok, []⟩ := by
  simp only [answerResetPort]

/-- Settles O13. -/
theorem resetPortTaken : Obligations.ResetPortTaken := by
  intro x s ht
  have taken : exec (.resetPort x []) s = _ :=
    exec_answered rfl ht (answerResetPort_ok x.port s) (by rw [State.setStore_ports, State.setNotice_ports])
  have entries := Store.entry_discardAll s.store x.port
  have mem := Store.mem_discardAll s.store x.port
  generalize s.store.discardAll x.port = st at taken entries mem
  refine ⟨_, taken, fun slot => (entries slot).trans ?_, mem, rfl, rfl, rfl, rfl, rfl⟩
  cases s.store.entry slot <;> rfl

end Sys2Proof.Machine

namespace Sys2Proof.Machine

open Sys2Proof

/-! ## The lengths of readouts (R24, R164 to R168, R175) -/

@[simp] theorem length_u8 (n : Nat) : (u8 n).length = 1 := rfl

@[simp] theorem length_u16 (n : Nat) : (u16 n).length = 2 := rfl

@[simp] theorem length_u24 (n : Nat) : (u24 n).length = 3 := rfl

@[simp] theorem length_s16 (v : Int) : (s16 v).length = 2 := rfl

@[simp] theorem length_s24 (v : Int) : (s24 v).length = 3 := rfl

@[simp] theorem length_encTemp (t : Option Int) : (encTemp t).length = 2 := rfl

@[simp] theorem length_encMass (m : Option Int) : (encMass m).length = 3 := rfl

@[simp] theorem length_encSpeed (v : Option Nat) : (encSpeed v).length = 2 := rfl

@[simp] theorem length_encShort (t : Option Nat) : (encShort t).length = 2 := rfl

@[simp] theorem length_encCode (v : Option Nat) : (encCode v).length = 1 := rfl

/-! ### The status block -/

@[simp] theorem RunContext.length_statusBytes (r : RunContext) : r.statusBytes.length = 9 := by
  simp [RunContext.statusBytes]

@[simp] theorem Channel.length_statusBytes (c : Channel) : c.statusBytes.length = 10 := by
  simp [Channel.statusBytes]

@[simp] theorem HeatUnit.length_statusBytes (h : HeatUnit) : h.statusBytes.length = 12 := by
  simp [HeatUnit.statusBytes]

@[simp] theorem StirUnit.length_statusBytes (u : StirUnit) : u.statusBytes.length = 7 := by
  simp [StirUnit.statusBytes]

theorem State.length_statusBlock (s : State) (b : BowlId) : (s.statusBlock b).length = 39 := by
  simp [State.statusBlock]

/-! ### Page 0 -/

/-- Bytes put within a record leave its length. -/
theorem length_putBytes {r v : List Byte} {i n : Nat} (hr : r.length = n) (h : i + v.length ≤ n) :
    (putBytes r i v).length = n := by
  simp only [putBytes, List.length_append, List.length_take, List.length_drop]
  omega

theorem length_setRecBit {r : List Byte} {i j n : Nat} (hr : r.length = n) (h : i + 1 ≤ n) :
    (setRecBit r i j).length = n :=
  length_putBytes hr h

/-- Each part of the effective record is put within the 22 bytes of the record (R5, R167). -/
@[simp] theorem length_effectiveRecord (r : Record) (override : Option Nat) : (effectiveRecord r override).length = 22 := by
  unfold effectiveRecord
  extract_lets st written target ramp speed interval weigh duration loops
  have hwritten : written.length = 22 := r.length_toList
  have htarget : target.length = 22 := by
    simp only [target]
    split
    · exact length_putBytes hwritten (by simp)
    · exact hwritten
  have hramp : ramp.length = 22 := by
    simp only [ramp]
    split
    · exact length_putBytes htarget (by simp)
    · exact htarget
  have hspeed : speed.length = 22 := by
    simp only [speed]
    split
    · exact hramp
    · exact length_putBytes (length_setRecBit hramp (by simp)) (by simp)
    · exact length_putBytes hramp (by simp)
  have hinterval : interval.length = 22 := by
    simp only [interval]
    split
    · exact length_putBytes hspeed (by simp)
    · exact hspeed
  have hweigh : weigh.length = 22 := by
    simp only [weigh]
    split
    · exact length_putBytes hinterval (by simp)
    · exact hinterval
  have hduration : duration.length = 22 := by
    simp only [duration]
    split
    · exact length_putBytes hweigh (by simp)
    · exact hweigh
  have hloops : loops.length = 22 := by
    simp only [loops]
    split
    · exact length_putBytes hduration (by simp)
    · exact hduration
  split
  · exact length_putBytes hloops (by simp)
  · exact hloops

@[simp] theorem RunContext.length_effectiveBytes (r : RunContext) : r.effectiveBytes.length = 22 := by
  unfold RunContext.effectiveBytes
  split <;> simp

@[simp] theorem length_loopBytes (loops : List LoopEntry) : (loopBytes loops).length = 13 := by
  simp [loopBytes]

theorem length_holdBytes (h : Option Hold) {free : List Byte} (hf : free.length = 3) : (holdBytes h free).length = 5 := by
  cases h <;> simp [holdBytes, hf]

theorem Channel.length_partBytes (c : Channel) {free : List Byte} (hf : free.length = 2) :
    (c.partBytes free).length = 5 := by
  unfold Channel.partBytes
  split <;> simp [hf]

@[simp] theorem StirUnit.length_orderBytes (u : StirUnit) : u.orderBytes.length = 7 := by
  unfold StirUnit.orderBytes
  cases u.order <;> simp

@[simp] theorem RunContext.length_pageBytes (r : RunContext) : r.pageBytes.length = 53 := by
  unfold RunContext.pageBytes
  simp only [List.length_append]
  simp only [length_u8, length_u16, length_u24, length_encCode, length_encTemp,
    length_encSpeed, length_effectiveBytes, length_loopBytes]

theorem State.length_page0 (s : State) (b : BowlId) : (s.page0 b s.freeBytes).length = 89 := by
  have hfree : s.freeBytes.length = 5 := by simp [State.freeBytes]
  have hhold := length_holdBytes (s.bowl b).run.hold (free := s.freeBytes.take 3) (by simp [hfree])
  have hpart := (s.bowl b).weigh.length_partBytes (free := s.freeBytes.drop 3) (by simp [hfree])
  unfold State.page0
  simp only [List.length_append]
  simp only [length_u8, length_u16, length_encSpeed, length_encShort,
    RunContext.length_pageBytes, StirUnit.length_orderBytes, hhold, hpart]

/-! ### Pages 1 to 3 -/

theorem State.length_page1 (s : State) (b : BowlId) : (s.page1 b).length = 11 := by
  unfold State.page1
  split <;> simp

@[simp] theorem length_contextBytes (c : Option CalContext) : (contextBytes c).length = 5 := by
  rcases c with _ | ⟨kind, phase⟩
  · rfl
  · cases kind <;> cases phase <;> rfl

theorem State.length_page2 (s : State) (b : BowlId) : (s.page2 b).length = 28 := by
  unfold State.page2
  simp only [List.length_append]
  simp only [length_u8, length_u16, length_u24, length_s24, length_encCode,
    length_contextBytes]

@[simp] theorem MotorAccount.length_bytes (m : MotorAccount) : m.bytes.length = 6 := by
  simp [MotorAccount.bytes]

@[simp] theorem HeaterAccount.length_bytes (h : HeaterAccount) : h.bytes.length = 8 := by
  simp [HeaterAccount.bytes]

@[simp] theorem Account.length_bytes (a : Account) (e : Ended) : (a.bytes e).length = 44 := by
  unfold Account.bytes
  simp only [List.length_append]
  simp only [length_u8, length_u16, MotorAccount.length_bytes,
    HeaterAccount.length_bytes]

theorem State.length_page3 (s : State) : s.page3.length = 59 := by
  unfold State.page3
  simp only [List.length_append, length_u8, length_u16, length_encCode]
  split <;> simp

/-! ### Notices and recipes -/

theorem NoticePort.length_listing (n : NoticePort) : n.listing.length = 11 := by
  simp [NoticePort.listing]

theorem Entry.length_listing (e : Entry) : e.listing.length = 9 := by
  cases e with
  | free => rfl
  | loading id owner start length written fault => cases fault <;> simp [Entry.listing]
  | ready => simp [Entry.listing]

/-- Parts of one length each. -/
theorem length_flatMap_of_const {α β : Type} {f : α → List β} {k : Nat} (h : ∀ x, (f x).length = k) (l : List α) :
    (l.flatMap f).length = k * l.length := by
  simp [List.length_flatMap, h, Nat.mul_comm]

theorem Store.length_listing (st : Store) : st.listing.length = 73 + 2 * st.free.length := by
  have entries := length_flatMap_of_const Entry.length_listing st.table.toList
  have extents := length_flatMap_of_const (f := fun e : Extent => u8 e.start ++ u8 (e.length - 1)) (k := 2)
    (fun _ => rfl) st.free
  simp only [Store.listing, List.length_append, entries, extents, length_u8, Vector.length_toList]

/-! ## The requests that read -/

theorem answerGetStatus_ok {pb : Byte} {b : BowlId} (hb : bowlOf pb = some b) (s : State) :
    answerGetStatus [pb] s = ⟨s, .ok, s.statusBlock b⟩ := by
  simp only [answerGetStatus, withBowl, hb]

theorem answerReadPage_eq {pb : Byte} {b : BowlId} (hb : bowlOf pb = some b) (s : State) :
    answerReadPage [pb, 0] s = ⟨{ s with draws := s.draws + 5 }, .ok, s.page0 b s.freeBytes⟩ ∧
      answerReadPage [pb, 1] s = ⟨s, .ok, s.page1 b⟩ ∧ answerReadPage [pb, 2] s = ⟨s, .ok, s.page2 b⟩ ∧
      answerReadPage [pb, 3] s = ⟨s, .ok, s.page3⟩ := by
  simp only [answerReadPage, withBowl, hb]
  exact ⟨rfl, rfl, rfl, rfl⟩

/-- Settles O14. -/
theorem readsAnswerWithWholeReadouts : Obligations.ReadsAnswerWithWholeReadouts := by
  refine ⟨fun x s ht => ⟨exec_answered rfl ht rfl rfl, exec_answered rfl ht rfl rfl, exec_answered rfl ht rfl rfl,
    fun pb b hb => ?_⟩, fun s b p => ⟨s.length_statusBlock b, s.length_page0 b, s.length_page1 b, s.length_page2 b,
    s.length_page3, NoticePort.length_listing _, s.store.length_listing⟩⟩
  obtain ⟨page0, page1, page2, page3⟩ := answerReadPage_eq hb s
  exact ⟨exec_answered rfl ht (answerGetStatus_ok hb s) rfl, exec_answered rfl ht page0 rfl,
    exec_answered rfl ht page1 rfl, exec_answered rfl ht page2 rfl, exec_answered rfl ht page3 rfl⟩

/-! ## The starting values -/

/-- Settles O4. -/
theorem resetLeavesStartingValues : Obligations.ResetLeavesStartingValues := by
  refine ⟨fun b => ?_, ⟨rfl, Store.entry_initial⟩, by decide, by decide, fun p => ?_, fun p => ?_⟩
  · have initial : State.reset.bowl b = .initial := by cases b <;> rfl
    simp only [initial]
    and_intros <;> rfl
  · cases p <;> decide
  · cases p <;> decide

/-- A motor at its starting values is safe (R105, R109). -/
theorem StirUnit.safe_initial : StirUnit.initial.Safe :=
  ⟨fun _ => rfl, fun _ => ⟨rfl, rfl⟩, fun _ => by decide⟩

/-- A starting bowl's latch is clear (R81). -/
theorem Bowl.latchHeld_initial : Bowl.initial.LatchHeld := fun h => by cases h

/-- Settles O56: the store and the user sets are those of a restart. -/
theorem invariantsHoldAtReset : Obligations.InvariantsHoldAtReset :=
  ⟨⟨StirUnit.safe_initial, StirUnit.safe_initial⟩, ⟨Bowl.latchHeld_initial, Bowl.latchHeld_initial⟩,
    Store.Sound.initial, keptByBlocks_usersMatch.shared (keptByBlocks_usersMatch.restart .reset false) rfl rfl⟩

end Sys2Proof.Machine

namespace Sys2Proof.Machine

open Sys2Proof

/-! ## How a request of one bowl is answered, and how an event is taken -/

@[simp] theorem State.bowl_answered (u : State) (x : Xfer) (ps : List Byte) (st : Status) (rs : List Byte) (b : BowlId) :
    (u.answered x ps st rs).bowl b = u.bowl b := rfl

@[simp] theorem State.answered_store (u : State) (x : Xfer) (ps : List Byte) (st : Status) (rs : List Byte) :
    (u.answered x ps st rs).store = u.store := rfl

@[simp] theorem State.answered_image (u : State) (x : Xfer) (ps : List Byte) (st : Status) (rs : List Byte) :
    (u.answered x ps st rs).image = u.image := rfl

@[simp] theorem State.answered_arbiter (u : State) (x : Xfer) (ps : List Byte) (st : Status) (rs : List Byte) :
    (u.answered x ps st rs).arbiter = u.arbiter := rfl

@[simp] theorem State.answered_notices (u : State) (x : Xfer) (ps : List Byte) (st : Status) (rs : List Byte) :
    (u.answered x ps st rs).notices = u.notices := rfl

/-- The ports after an answer are those of any other state with the same ports before it. -/
theorem State.answered_ports {s u : State} (h : u.ports = s.ports) (x : Xfer) (ps : List Byte) (st : Status)
    (rs : List Byte) : (u.answered x ps st rs).ports = (s.answered x ps st rs).ports := by
  simp only [State.answered, State.setPort_ports, h]

/-- A request that its port takes and its owner answers by operations of one bowl. -/
theorem exec_operated {i : Instr} {code : Byte} {x : Xfer} {params : List Byte} {owner : State → Reply} {s u : State}
    {status : Status} {results : List Byte} {b : BowlId} (exec_eq : exec i s = takeRequest code x params owner s)
    (ht : s.takes x.port) (answer : owner s = ⟨u, status, results⟩) (ops : BowlOps b s u) :
    exec i s = .next (u.answered x params status results) ∧ s.Within u b ∧
      (u.answered x params status results).ports = (s.answered x params status results).ports :=
  ⟨exec_answered exec_eq ht answer ops.within.ports, ops.within, State.answered_ports ops.within.ports _ _ _ _⟩

/-- A command that is an event means its effect, held back by the RESET pin (R156). -/
theorem exec_eq_whileReleased {i : Instr} {f : State → State} (effect : eventOf i = some f) (s : State) :
    exec i s = whileReleased f s := by
  cases i <;> cases effect <;> rfl

/-- An event outside reset has its effect. -/
theorem exec_event {i : Instr} {s : State} (f : State → State) (effect : eventOf i = some f) (hr : s.inReset = false) :
    exec i s = .next (f s) :=
  (exec_eq_whileReleased effect s).trans (whileReleased_released f s hr)

/-- A bowl parameter that names a bowl. -/
theorem withBowl_of {pb : Byte} {b : BowlId} (hb : bowlOf pb = some b) (s : State) (f : BowlId → Reply) :
    withBowl pb s f = f b := by
  simp only [withBowl, hb]

/-! ## A formation of the target, continued (R109, R111 to R114, R120) -/

/-- What the first pass of a formation leaves and each further pass and change keeps, the formation leaves; an engagement needs a
lock speed above 1,200 rpm. -/
theorem StirUnit.form_of_pass (P : StirUnit → Prop) (pass : ∀ v : StirUnit, P v → P v.formPass.1)
    (reversal : ∀ v : StirUnit, P v → P v.completeReversal) (release : ∀ v : StirUnit, P v → P v.release)
    (engage : ∀ v : StirUnit, P v → v.engages = true → P v.engage) {u : StirUnit} (passed : P u.formPass.1) :
    P u.form.1 := by
  have formIf (v : StirUnit) (c : Bool) (change : StirUnit → StirUnit) (hc : c = true → P (change v)) (hv : P v) :
      P (v.formIf c change).1 := by
    unfold StirUnit.formIf
    split
    · rename_i hc'
      exact pass _ (hc hc')
    · exact hv
  have reversed := formIf _ u.formPass.1.reversalDone _ (fun _ => reversal _ passed) passed
  have released (c : Bool) := formIf _ c _ (fun _ => release _ reversed) reversed
  exact formIf _ _ _ (fun hc => engage _ (released _) hc) (released _)

/-- What every pass and change of a formation keeps, the formation keeps. -/
theorem StirUnit.form_preserves (P : StirUnit → Prop) (pass : ∀ v : StirUnit, P v → P v.formPass.1)
    (reversal : ∀ v : StirUnit, P v → P v.completeReversal) (release : ∀ v : StirUnit, P v → P v.release)
    (engage : ∀ v : StirUnit, P v → v.engages = true → P v.engage) {u : StirUnit} (h : P u) : P u.form.1 :=
  u.form_of_pass P pass reversal release engage (pass _ h)

theorem StirUnit.formPass_stall_none {u : StirUnit} (h : u.stall = none) : u.formPass.1.stall = none := by
  have cut (v : StirUnit) (n : Nat) (hv : v.stall = none) : (v.cutTo n).stall = none := by
    unfold StirUnit.cutTo
    split
    · rfl
    · exact hv
  simp only [StirUnit.formPass, StirUnit.cuts]
  split
  · exact cut _ _ h
  · split
    · exact h
    · exact cut _ _ h

/-- A formation starts no stall timer (R116). -/
theorem StirUnit.form_stall_none {u : StirUnit} (h : u.stall = none) : u.form.1.stall = none :=
  u.form_preserves (fun v => v.stall = none) (fun _ => formPass_stall_none) (fun _ h => h) (fun _ h => h)
    (fun _ h _ => by simpa using h) h

/-- A formation begins no reversal (R112). -/
theorem StirUnit.form_pendingDir_none {u : StirUnit} (h : u.pendingDir = none) : u.form.1.pendingDir = none := by
  refine Eq.trans (u.form_directions ?_).2.1 h
  simp [StirUnit.reversalDone, h]

/-- A formation leaves the setpoint at 0. -/
theorem StirUnit.form_setpoint_zero {u : StirUnit} (h : u.setpoint = 0) : u.form.1.setpoint = 0 :=
  Nat.le_zero.mp (h ▸ u.form_setpoint_le)

/-- In mains hold a formation cuts the setpoint to 0 (R111, R118). -/
theorem StirUnit.form_setpoint_mainsHold {u : StirUnit} (h : u.mainsHold = true) : u.form.1.setpoint = 0 := by
  refine (u.form_of_pass (fun v => v.mainsHold = true ∧ v.setpoint = 0) (fun v hv => ?_) (fun _ hv => hv)
    (fun _ hv => hv) (fun v hv _ => by simpa using hv) ⟨by simpa using h, ?_⟩).2
  · exact ⟨by simpa using hv.1, Nat.le_zero.mp (hv.2 ▸ v.formPass_setpoint_le)⟩
  · simp [StirUnit.formPass, StirUnit.cuts, h, StirUnit.cutTo_setpoint]

/-- No stage of the formation raises the phase speed (R109). -/
theorem StirUnit.lockSpeed_le_phaseSpeed (u : StirUnit) : u.lockSpeed ≤ u.phaseSpeed := by
  have free : u.freeSpeed ≤ u.phaseSpeed := by
    unfold StirUnit.freeSpeed
    split
    · exact Nat.zero_le _
    · split
      · exact Nat.min_le_left _ _
      · exact Nat.le_refl _
  unfold StirUnit.lockSpeed
  split
  · exact Nat.le_trans (Nat.min_le_left _ _) free
  · exact free

/-- Without a speed asked for, the target formed is 0. -/
theorem StirUnit.formedTarget_zero {u : StirUnit} (h : u.phaseSpeed = 0) : u.formedTarget = 0 := by
  have hl : u.lockSpeed = 0 := Nat.le_zero.mp (h ▸ u.lockSpeed_le_phaseSpeed)
  unfold StirUnit.formedTarget StirUnit.lockLimited
  rw [hl]
  split <;> rfl

/-- A formation under FORCED_OFF leaves the target at 0 (R120). -/
theorem StirUnit.form_target_forcedOff {u : StirUnit} (h : u.order = .forcedOff) : u.form.1.target = 0 := by
  rw [u.form_formed.1]
  refine StirUnit.formedTarget_zero ?_
  simp only [StirUnit.phaseSpeed, StirUnit.form_order, h]

/-- Under FORCED_OFF the lock, once released, stays so: a formation does not engage it (R113). -/
theorem StirUnit.form_lock_forcedOff {u : StirUnit} (ho : u.order = .forcedOff) (hl : u.lock = .released)
    (ht : u.lockTimer = none) : u.form.1.lock = .released ∧ u.form.1.lockTimer = none := by
  refine (u.form_preserves (fun v => v.order = .forcedOff ∧ v.lock = .released ∧ v.lockTimer = none)
    (fun v h => by simpa using h) (fun v h => by simpa using h) (fun v h => ⟨h.1, rfl, rfl⟩) (fun v h engages => ?_)
    ⟨ho, hl, ht⟩).2
  have idle : v.phaseSpeed = 0 := by simp only [StirUnit.phaseSpeed, h.1]
  have slow := v.lockSpeed_le_phaseSpeed
  simp only [StirUnit.engages, Bool.and_eq_true, decide_eq_true_eq] at engages
  omega

/-- What a FORCED_OFF order leaves of a stirring unit: nothing turns and no stall timer or reversal runs (R120). -/
structure StirUnit.Forced (g : StirUnit) : Prop where
  order : g.order = .forcedOff
  target : g.target = 0
  setpoint : g.setpoint = 0
  pendingDir : g.pendingDir = none
  stall : g.stall = none

theorem StirUnit.handForcedOff_forced (u : StirUnit) : u.handForcedOff.1.Forced where
  order := StirUnit.form_order _
  target := StirUnit.form_target_forcedOff rfl
  setpoint := StirUnit.form_setpoint_zero rfl
  pendingDir := StirUnit.form_pendingDir_none rfl
  stall := StirUnit.form_stall_none rfl

@[simp] theorem StirUnit.handZero_order (u : StirUnit) : u.handZero.1.order = .speedZero := StirUnit.form_order _

@[simp] theorem StirUnit.hotReading_order (u : StirUnit) (t : Int) : (u.hotReading t).1.order = u.order :=
  StirUnit.form_order _

/-- A SPEED_ZERO order leaves the setpoint at 0 (R106). -/
theorem StirUnit.handZero_setpoint_zero {u : StirUnit} (h : u.setpoint = 0) : u.handZero.1.setpoint = 0 :=
  StirUnit.form_setpoint_zero h

/-- A SPEED_ZERO order begins no reversal (R106). -/
theorem StirUnit.handZero_pendingDir_none {u : StirUnit} (h : u.pendingDir = none) : u.handZero.1.pendingDir = none :=
  StirUnit.form_pendingDir_none h

end Sys2Proof.Machine

namespace Sys2Proof.Machine

open Sys2Proof

/-! ## A bowl that rests, pauses, ends its run or faults -/

/-- A run context in which an operation may have noted a clamp (R35). -/
def RunContext.noting (r : RunContext) (c : Bool) : RunContext := { r with flags := { r.flags with l := r.flags.l || c } }

/-- A bowl that has entered PAUSED with these causes (R47). -/
def Bowl.paused (x : Bowl) (causes : PauseSet) (back : ResumeState) : Bowl :=
  { x with
    run := { x.run with state := .paused, resume := some back, pauses := causes }.noting x.stir.handZero.2
    heat := x.heat.handNoHeat false
    stir := x.stir.handZero.1 }

/-- A bowl after a pause cause has joined (R47 to R50). -/
def Bowl.joinPause (x : Bowl) (join : PauseSet → PauseSet) : Bowl :=
  match x.run.state with
  | .running => x.paused (join x.run.pauses) .running
  | .holding => x.paused (join x.run.pauses) .holding
  | .paused => { x with run := { x.run with pauses := join x.run.pauses } }
  | .idle => x
  | .calibrating => x
  | .fault => x

theorem Bowl.joinPause_running {x : Bowl} (join : PauseSet → PauseSet) (h : x.run.state = .running) :
    x.joinPause join = x.paused (join x.run.pauses) .running := by
  simp only [Bowl.joinPause, h]

theorem State.bowl_addPause (s : State) (b : BowlId) (join : PauseSet → PauseSet) :
    (s.addPause b join).bowl b = (s.bowl b).joinPause join := by
  cases h : (s.bowl b).run.state <;>
    simp [State.addPause, State.enterPaused, Bowl.joinPause, Bowl.paused, RunContext.noting, h]

/-- The entry into PAUSED is noticed at both ports (R47). -/
theorem State.addPause_notice {s : State} {b : BowlId} (join : PauseSet → PauseSet)
    (h : (s.bowl b).run.state = .running ∨ (s.bowl b).run.state = .holding) (p : PortId) :
    ((s.addPause b join).notices.get p).flags.getLsbD (Cause.ofBowl b .paused).number = true := by
  rcases h with h | h <;> simp only [State.addPause, h] <;> exact State.raise_flag _ _ p

/-- A bowl after the end of its run (R42). -/
def Bowl.ended (x : Bowl) : Bowl :=
  { x with
    run := x.run.ended.noting x.stir.handZero.2
    heat := x.heat.handNoHeat true
    stir := x.stir.handZero.1
    weigh := x.weigh.withdraw }

@[simp] theorem State.setUser_notices (s : State) (slot : Nat) (b : BowlId) (member : Bool) :
    (s.setUser slot b member).notices = s.notices := by
  unfold State.setUser
  split <;> rfl

@[simp] theorem State.leaveSlot_notices (s : State) (b : BowlId) : (s.leaveSlot b).notices = s.notices := by
  unfold State.leaveSlot
  split <;> simp

@[simp] theorem State.bowl_leaveSlot (s : State) (b c : BowlId) : (s.leaveSlot b).bowl c = s.bowl c := by
  unfold State.leaveSlot
  split <;> simp

theorem State.bowl_endRun (s : State) (b : BowlId) : (s.endRun b).bowl b = (s.bowl b).ended := by
  simp [State.endRun, State.withdrawWeigh, Bowl.ended, RunContext.noting]

/-- The end of a run is noticed by none but its caller (R42). -/
@[simp] theorem State.endRun_notices (s : State) (b : BowlId) : (s.endRun b).notices = s.notices := by
  simp [State.endRun, State.withdrawWeigh, State.giveRest]

theorem State.bowl_finishRun (s : State) (b : BowlId) : (s.finishRun b).bowl b = (s.bowl b).ended := s.bowl_endRun b

/-- The end of a run by FINISH or the hold limit is noticed at both ports (R42, R53). -/
theorem State.finishRun_notice (s : State) (b : BowlId) (p : PortId) :
    ((s.finishRun b).notices.get p).flags.getLsbD (Cause.ofBowl b .runEnd).number = true := State.raise_flag _ _ p

/-- A bowl with its outputs forced to 0 (R27). -/
def Bowl.forcedOff (x : Bowl) : Bowl :=
  { x with
    run := x.run.noting x.stir.handForcedOff.2
    heat := x.heat.forceOff
    stir := x.stir.handForcedOff.1 }

/-- A bowl whose calibration, where one was in progress, is ended as aborted (R54, R151). -/
def Bowl.calibrationDropped (x : Bowl) : Bowl :=
  if x.run.state = .calibrating then { x with cal := x.cal.finish .aborted, weigh := x.weigh.reload } else x

/-- A bowl at the entry into FAULT (R54). -/
def Bowl.faulted (x : Bowl) (cause : FaultCause) (value : Int) : Bowl :=
  let y := x.calibrationDropped
  { y with
    run := (x.run.faulted cause value).noting x.stir.handForcedOff.2
    heat := x.heat.forceOff
    stir := x.stir.handForcedOff.1
    weigh := y.weigh.withdraw }

theorem State.bowl_reportFault {s : State} {b : BowlId} (h : (s.bowl b).run.state ≠ .fault) (cause : FaultCause)
    (value : Int) : (s.reportFault b cause value).bowl b = (s.bowl b).faulted cause value := by
  simp only [State.reportFault, if_neg h]
  by_cases hc : (s.bowl b).run.state = .calibrating <;>
    simp [hc, Bowl.faulted, Bowl.calibrationDropped, State.closeCalibration, State.withdrawWeigh, RunContext.noting]

/-- A further report at a bowl in FAULT only joins the capture's further causes (R55). -/
theorem State.bowl_reportFault_further {s : State} {b : BowlId} (h : (s.bowl b).run.state = .fault) (cause : FaultCause)
    (value : Int) :
    (s.reportFault b cause value).bowl b =
      { s.bowl b with
        run := { (s.bowl b).run with capture := (s.bowl b).run.capture.map (fun c => c.addFurther cause) } } := by
  simp [State.reportFault, h]

theorem State.reportFault_notice (s : State) (b : BowlId) (cause : FaultCause) (value : Int) (p : PortId) :
    ((s.reportFault b cause value).notices.get p).flags.getLsbD (Cause.ofBowl b .fault).number = true :=
  State.raise_flag _ _ p

/-! ## Trigger evaluations (R36) -/

theorem State.evaluate_unmet {s : State} {b : BowlId}
    (h : (s.bowl b).run.state = .running →
      (s.bowl b).run.step.triggersMet (s.bowl b).run.stepTimer (s.bowl b).run.extension (s.bowl b).run.flags = false) :
    s.evaluate b = s := by
  simp only [State.evaluate]
  rw [if_neg]
  rintro ⟨running, met⟩
  exact absurd met (by simp [h running])

theorem State.evaluate_met {s : State} {b : BowlId} (running : (s.bowl b).run.state = .running)
    (met : (s.bowl b).run.step.triggersMet (s.bowl b).run.stepTimer (s.bowl b).run.extension (s.bowl b).run.flags = true) :
    s.evaluate b = s.endStep b :=
  if_pos ⟨running, met⟩

end Sys2Proof.Machine

namespace Sys2Proof.Machine

open Sys2Proof

/-! ## PAUSE, STOP and CLEAR_FAULT (R47, R48, R56, R57) -/

section Requests

variable {pb : Byte} {b : BowlId} {s : State}

theorem answerPause_ok (hb : bowlOf pb = some b)
    (h : (s.bowl b).run.state = .running ∨ (s.bowl b).run.state = .holding ∨ (s.bowl b).run.state = .paused) :
    answerPause [pb] s = ⟨s.addPause b PauseSet.withRequest, .ok, []⟩ := by
  rcases h with h | h | h <;> simp only [answerPause, withBowl_of hb, State.pauseBowl, h]

theorem answerPause_refused (hb : bowlOf pb = some b)
    (h : (s.bowl b).run.state = .idle ∨ (s.bowl b).run.state = .calibrating ∨ (s.bowl b).run.state = .fault) :
    answerPause [pb] s = refuse s .wrongState := by
  rcases h with h | h | h <;> simp only [answerPause, withBowl_of hb, State.pauseBowl, h]

/-- A pause cause only joins the set of a PAUSED bowl (R47). -/
theorem State.addPause_paused (join : PauseSet → PauseSet) (h : (s.bowl b).run.state = .paused) :
    s.addPause b join = s.setRun b { (s.bowl b).run with pauses := join (s.bowl b).run.pauses } := by
  simp only [State.addPause, h]

theorem State.addPause_store (join : PauseSet → PauseSet) : (s.addPause b join).store = s.store := by
  cases h : (s.bowl b).run.state <;> simp [State.addPause, State.enterPaused, State.giveRest, h]

theorem answerStop_idle (hb : bowlOf pb = some b) (h : (s.bowl b).run.state = .idle) :
    answerStop [pb] s = ⟨s.forceOff b, .ok, []⟩ := by
  simp only [answerStop, withBowl_of hb, State.stopBowl, h]

theorem answerStop_run (hb : bowlOf pb = some b)
    (h : (s.bowl b).run.state = .running ∨ (s.bowl b).run.state = .paused ∨ (s.bowl b).run.state = .holding) :
    answerStop [pb] s = ⟨(s.forceOff b).endRun b, .ok, []⟩ := by
  rcases h with h | h | h <;> simp only [answerStop, withBowl_of hb, State.stopBowl, h]

theorem answerClearFault_persists (hb : bowlOf pb = some b) (h : (s.bowl b).run.state = .fault)
    (persists : (s.bowl b).faultPersists = true) : answerClearFault [pb] s = refuse s .persists := by
  simp [answerClearFault, withBowl_of hb, h, persists]

theorem answerClearFault_ok (hb : bowlOf pb = some b) (h : (s.bowl b).run.state = .fault)
    (gone : (s.bowl b).faultPersists = false) : answerClearFault [pb] s = ⟨s.clearFault b, .ok, []⟩ := by
  simp [answerClearFault, withBowl_of hb, h, gone]

end Requests

/-- Settles O17. -/
theorem pauseByBowlState : Obligations.PauseByBowlState := by
  intro x pb b s ht hb
  have taken (h : (s.bowl b).run.state = .running ∨ (s.bowl b).run.state = .holding ∨ (s.bowl b).run.state = .paused) :=
    exec_operated (i := .pause x [pb]) rfl ht (answerPause_ok hb h) (.addPause s b _)
  refine ⟨fun h => ?_, fun h => ?_, fun h => ?_, fun h => exec_refused rfl ht (answerPause_refused hb h)⟩
  · obtain ⟨next, within, ports⟩ := taken (.inl h)
    refine ⟨_, next, ?_⟩
    simp only [State.bowl_answered, State.bowl_addPause, Bowl.joinPause, h]
    exact ⟨rfl, rfl, rfl, rfl, rfl, rfl, rfl, rfl, rfl, rfl, rfl, rfl, rfl, StirUnit.form_order _, within.other,
      State.addPause_store _, ports⟩
  · obtain ⟨next, within, ports⟩ := taken (.inr (.inl h))
    refine ⟨_, next, ?_⟩
    simp only [State.bowl_answered, State.bowl_addPause, Bowl.joinPause, h]
    exact ⟨rfl, rfl, rfl, rfl, rfl, rfl, rfl, rfl, rfl, rfl, rfl, rfl, rfl, StirUnit.form_order _, within.other,
      State.addPause_store _, ports⟩
  · obtain ⟨next, -, -⟩ := taken (.inr (.inr h))
    exact next.trans (by rw [State.addPause_paused _ h]; rfl)

/-- A bowl whose outputs are forced to 0, or that rests after them (R27, R57, R87, R120). -/
structure Bowl.OutputsOff (y : Bowl) : Prop where
  relayMain : y.heat.relayMain = .opened
  relayKeep : y.heat.relayKeep = .opened
  posted : y.heat.posted = 0
  grant : y.heat.grant = 0
  integral : y.heat.integral = 0
  setpoint : y.stir.setpoint = 0
  target : y.stir.target = 0
  pendingDir : y.stir.pendingDir = none

theorem State.bowl_forceOff_eq (s : State) (b : BowlId) : (s.forceOff b).bowl b = (s.bowl b).forcedOff :=
  s.bowl_forceOff b

theorem Bowl.outputsOff_forcedOff (x : Bowl) : x.forcedOff.OutputsOff :=
  have forced := x.stir.handForcedOff_forced
  ⟨rfl, rfl, rfl, rfl, rfl, forced.setpoint, forced.target, forced.pendingDir⟩

/-- The end of a run keeps outputs that are off (R42). -/
theorem Bowl.OutputsOff.ended {x : Bowl} (h : x.OutputsOff) : x.ended.OutputsOff :=
  ⟨rfl, rfl, rfl, h.grant, rfl, StirUnit.handZero_setpoint_zero h.setpoint, x.stir.handZero_rests.target,
    StirUnit.handZero_pendingDir_none h.pendingDir⟩

/-- Settles O19. -/
theorem stopForcesOutputsOff : Obligations.StopForcesOutputsOff := by
  intro x pb b s ht hb r h
  have off := (s.bowl b).outputsOff_forcedOff
  rcases h with idle | run
  · obtain ⟨next, within, ports⟩ :=
      exec_operated (i := .stop x [pb]) rfl ht (answerStop_idle hb idle) (.forceOff s b)
    refine ⟨_, next, ?_, within.other, by simp [State.forceOff], within.arbiter, ports⟩
    simp only [State.bowl_answered, State.bowl_forceOff_eq]
    exact ⟨idle, rfl, rfl, rfl, fun active => absurd idle active, off.relayMain, off.relayKeep, off.posted, off.grant,
      off.integral, off.setpoint, off.target, off.pendingDir⟩
  · obtain ⟨next, within, ports⟩ :=
      exec_operated (i := .stop x [pb]) rfl ht (answerStop_run hb run) ((BowlOps.forceOff s b).trans (.endRun _ b))
    refine ⟨_, next, ?_, within.other, by simp [State.forceOff], within.arbiter, ports⟩
    simp only [State.bowl_answered, State.bowl_endRun, State.bowl_forceOff_eq]
    have off := off.ended
    exact ⟨rfl, rfl, rfl, rfl, fun _ => ⟨rfl, rfl, rfl, rfl⟩, off.relayMain, off.relayKeep, off.posted, off.grant,
      off.integral, off.setpoint, off.target, off.pendingDir⟩

/-- Settles O23. -/
theorem clearFaultEndsFault : Obligations.ClearFaultEndsFault := by
  intro x pb b s ht hb h
  refine ⟨fun persists => exec_refused rfl ht (answerClearFault_persists hb h persists), fun gone => ?_⟩
  obtain ⟨next, within, ports⟩ :=
    exec_operated (i := .clearFault x [pb]) rfl ht (answerClearFault_ok hb h gone) (.clearFault s b)
  refine ⟨_, next, ?_, within.other, by simp [State.clearFault], ports⟩
  simp only [State.bowl_answered, State.clearFault, State.bowl_endRun, State.bowl_setHeat]
  exact ⟨rfl, rfl, rfl, rfl, rfl, rfl, rfl, rfl⟩

/-! ## ANSWER and ADJUST (R44, R45) -/

section Steering

variable {b : BowlId} {s : State}

theorem answerAnswer_closed {pb pc pr : Byte} (hb : bowlOf pb = some b) (hc : pc ≠ 0) (hr : pr.toNat ≤ 2)
    (hs : (s.bowl b).run.state ≠ .calibrating) (hp : (s.bowl b).run.prompt = none) :
    answerAnswer [pb, pc, pr] s = refuse s .promptClosed := by
  simp only [answerAnswer, withBowl_of hb, if_neg (not_or.mpr ⟨hc, Nat.not_lt.mpr hr⟩), if_neg hs, hp]

theorem answerAnswer_ok {pb pc pr : Byte} (hb : bowlOf pb = some b) (hc : pc ≠ 0) (hr : pr.toNat ≤ 2)
    (hs : (s.bowl b).run.state ≠ .calibrating) (hp : (s.bowl b).run.prompt = some pc.toNat) :
    answerAnswer [pb, pc, pr] s = ⟨s.takeAnswer b (decide (pr = 1)), .ok, []⟩ := by
  simp only [answerAnswer, withBowl_of hb, if_neg (not_or.mpr ⟨hc, Nat.not_lt.mpr hr⟩), if_neg hs, hp,
    ne_eq, not_true, if_false]

/-- A change of the condition word of a bowl that does not run a step makes no evaluation (R36). -/
theorem State.changeFlags_inactive (w : FlagWord) (h : (s.bowl b).run.state ≠ .running) :
    s.changeFlags b w = s.setFlags b w := by
  simp only [State.changeFlags]
  split
  · rfl
  · exact State.evaluate_unmet (by simp [h])

/-- A change of T, M, O, Y or N makes an evaluation (R36). -/
theorem State.changeFlags_changed {w : FlagWord}
    (h : ¬ (w.t = (s.bowl b).run.flags.t ∧ w.m = (s.bowl b).run.flags.m ∧ w.o = (s.bowl b).run.flags.o ∧
      w.y = (s.bowl b).run.flags.y ∧ w.n = (s.bowl b).run.flags.n)) :
    s.changeFlags b w = (s.setFlags b w).evaluate b :=
  if_neg h

/-- A condition word with the same T, M, O, Y and N makes no evaluation (R36). -/
theorem State.changeFlags_same {w : FlagWord}
    (h : w.t = (s.bowl b).run.flags.t ∧ w.m = (s.bowl b).run.flags.m ∧ w.o = (s.bowl b).run.flags.o ∧
      w.y = (s.bowl b).run.flags.y ∧ w.n = (s.bowl b).run.flags.n) :
    s.changeFlags b w = s.setFlags b w :=
  if_pos h

end Steering

/-- Settles O21. -/
theorem answerClosesPrompt : Obligations.AnswerClosesPrompt := by
  intro x pb pc pr b s ht hb hc hr hs r w
  have closed : (s.setRun b { r with prompt := none }).setFlags b w = s.setRun b { r with prompt := none, flags := w } := by
    simp [State.setFlags]
  have asked : s.takeAnswer b (decide (pr = 1)) = (s.setRun b { r with prompt := none }).changeFlags b w := by
    simp only [State.takeAnswer, decide_eq_true_eq]
    rfl
  have taken (hp : r.prompt = some pc.toNat) :=
    (exec_operated (i := .answer x [pb, pc, pr]) rfl ht (answerAnswer_ok hb hc hr hs hp) (.takeAnswer s b _)).1
  refine ⟨fun hp => exec_refused rfl ht (answerAnswer_closed hb hc hr hs hp), fun hp inactive => ?_,
    fun hp running hy hn => ?_⟩
  · rw [taken hp, asked, State.changeFlags_inactive _ (by simpa using inactive), closed]
  · rw [taken hp, asked, State.changeFlags_changed, closed]
    simp only [State.bowl_setRun, hy, hn, w]
    split <;> simp

theorem RunContext.adjustable_running {r : RunContext} (h : r.state = .running) : r.adjustable = true := by
  simp only [RunContext.adjustable, h]

theorem RunContext.adjustable_paused {r : RunContext} (h : r.state = .paused) (hr : r.resume = some .running) :
    r.adjustable = true := by
  simp only [RunContext.adjustable, h, hr]

section Adjusting

variable {pb o1 o0 v1 v0 e1 e0 : Byte} {b : BowlId} {s : State}

/-- ADJUST of all three fields (R45, R162). -/
theorem answerAdjust_all (hb : bowlOf pb = some b) (hs : (s.bowl b).run.adjustable = true)
    (hv : 256 * v1.toNat + v0.toNat < 512) :
    let offset := (BitVec.ofNat 16 (256 * o1.toNat + o0.toNat)).toInt
    let speed := (256 * v1.toNat + v0.toNat) * 20
    let ext := 256 * e1.toNat + e0.toNat
    answerAdjust [pb, 7, o1, o0, v1, v0, e1, e0] s =
      ⟨s.takeAdjust b (some offset) (some speed) (some ext),
        if adjustClamps (some offset) (some speed) (some ext) then .clamped else .ok, []⟩ := by
  have admitted : ¬ (8 ≤ (7 : Byte).toNat ∨ ((7 : Byte).toNat.testBit 1 = true ∧ 512 ≤ 256 * v1.toNat + v0.toNat)) := by
    simp [hv]
  simp only [answerAdjust, withBowl_of hb, beNat_pair, if_neg admitted, hs, signedOf]
  rfl

/-- ADJUST of the time extension alone (R45, R162). -/
theorem answerAdjust_extension (hb : bowlOf pb = some b) (hs : (s.bowl b).run.adjustable = true) :
    let ext := 256 * e1.toNat + e0.toNat
    answerAdjust [pb, 4, o1, o0, v1, v0, e1, e0] s =
      ⟨s.takeAdjust b none none (some ext), if adjustClamps none none (some ext) then .clamped else .ok, []⟩ := by
  have admitted : ¬ (8 ≤ (4 : Byte).toNat ∨ ((4 : Byte).toNat.testBit 1 = true ∧ 512 ≤ 256 * v1.toNat + v0.toNat)) := by
    rintro (h | ⟨h, -⟩) <;> exact absurd h (by decide)
  simp only [answerAdjust, withBowl_of hb, beNat_pair, if_neg admitted, hs]
  rfl

end Adjusting

theorem adjustClamps_all (offset : Int) (speed ext : Nat) :
    adjustClamps (some offset) (some speed) (some ext) =
      decide (offset < -200 ∨ 200 < offset ∨ 9600 < speed ∨ 6000 < ext) := by
  have clamp : clampInt (-200) 200 offset ≠ offset ↔ offset < -200 ∨ 200 < offset := by
    rw [clampInt_eq _ _ _ (by decide)]
    omega
  simp only [adjustClamps, clamp, Bool.decide_or, Bool.or_assoc]

theorem RunContext.adjusted_all (r : RunContext) (offset : Int) (speed ext : Nat) :
    r.adjusted (some offset) (some speed) (some ext) =
      { r with
        offset := some (max (-200) (min 200 offset)), speedOverride := some (min speed 9600), extension := min ext 6000 } := by
  simp only [RunContext.adjusted, clampInt_eq (-200) 200 offset (by decide)]

/-- A clamp noted in a run context that has just been put in place (R35). -/
theorem State.noteClamp_setRun (s : State) (b : BowlId) (r : RunContext) (c : Bool) :
    (s.setRun b r).noteClamp b c = s.setRun b (r.noting c) := by
  cases c <;> simp [State.noteClamp, State.setFlags, RunContext.noting]

/-- Outside RUNNING an ADJUST is held until the RESUME (R45). -/
theorem State.takeAdjust_paused {s : State} {b : BowlId} (h : (s.bowl b).run.state = .paused) (offset : Option Int)
    (speed extension : Option Nat) :
    s.takeAdjust b offset speed extension =
      s.setRun b (((s.bowl b).run.adjusted offset speed extension).noting (adjustClamps offset speed extension)) := by
  simp only [State.takeAdjust, h, State.noteClamp_setRun]
  rfl

/-- A closed lid is not tested again (R49). -/
theorem State.retestLid_closed {s : State} {b : BowlId} (h : (s.bowl b).stir.lid.level = .closed) : s.retestLid b = s := by
  simp [State.retestLid, Bowl.lidOpen, h]

/-- A bowl RUNNING a step with its lid closed takes an extension that leaves the triggers unmet, and goes on (R45). -/
theorem State.takeAdjust_extension {s : State} {b : BowlId} {ext : Nat} (lid : (s.bowl b).stir.lid.level = .closed)
    (h : (s.bowl b).run.state = .running) (hext : ext ≤ 6000)
    (unmet : (s.bowl b).run.step.triggersMet (s.bowl b).run.stepTimer ext (s.bowl b).run.flags = false) :
    s.takeAdjust b none none (some ext) = s.setRun b { (s.bowl b).run with extension := ext } := by
  have noted : (s.setRun b ((s.bowl b).run.adjusted none none (some ext))).noteClamp b (adjustClamps none none (some ext)) =
      s.setRun b { (s.bowl b).run with extension := ext } := by
    rw [show adjustClamps none none (some ext) = false by simp [adjustClamps, hext]]
    simp [State.noteClamp, RunContext.adjusted, hext]
  have kept : ((s.bowl b).run.adjusted none none (some ext)).offset = (s.bowl b).run.offset ∧
      ((s.bowl b).run.adjusted none none (some ext)).speedOverride = (s.bowl b).run.speedOverride := ⟨rfl, rfl⟩
  unfold State.takeAdjust
  dsimp only
  rw [if_pos h, noted, if_pos kept, State.retestLid_closed (by simpa using lid)]
  split
  · rfl
  · refine State.evaluate_unmet ?_
    rw [State.bowl_setRun]
    exact fun _ => unmet

/-- Settles O22. -/
theorem adjustSetsOverrides : Obligations.AdjustSetsOverrides := by
  intro x pb o1 o0 v1 v0 e1 e0 b s ht hb r asked speed ext clamped
  refine ⟨fun paused resume hv => ?_, fun running lid hext unmet => ?_⟩
  · have hs := RunContext.adjustable_paused paused resume
    have clamps : adjustClamps (some asked) (some (speed * 20)) (some ext) = clamped := adjustClamps_all _ _ _
    refine (exec_operated (i := .adjust x _) rfl ht (answerAdjust_all hb hs hv) (.takeAdjust s b _ _ _)).1.trans ?_
    rw [clamps, State.takeAdjust_paused paused, clamps, RunContext.adjusted_all]
    rfl
  · have hs := RunContext.adjustable_running running
    refine (exec_operated (i := .adjust x _) rfl ht (answerAdjust_extension hb hs) (.takeAdjust s b _ _ _)).1.trans ?_
    rw [show adjustClamps none none (some (256 * e1.toNat + e0.toNat)) = false by
      simp only [adjustClamps, Bool.false_or, decide_eq_false_iff_not]; omega]
    rw [State.takeAdjust_extension lid running hext unmet]
    rfl

end Sys2Proof.Machine

namespace Sys2Proof.Machine

open Sys2Proof

/-! ## The timed events of a run (R33, R36, R37, R53) -/

/-- A step under ANY with TIME among its triggers is ended by its step timer (R36). -/
theorem Step.triggersMet_time {st : Step} {d timer extension : Nat} {w : FlagWord} (hd : st.durationInForce = some d)
    (time : st.triggers.time = true) (any : st.all = false) (due : d + extension ≤ timer) :
    st.triggersMet timer extension w = true := by
  simp [Step.triggersMet, Triggers.isEmpty, hd, time, any, due]

/-- The TIME expiry raises the step timer to its due value and evaluates the triggers (R33). -/
theorem State.timeExpiry_due {s : State} {b : BowlId} {d : Nat} (running : (s.bowl b).run.state = .running)
    (hd : (s.bowl b).run.step.durationInForce = some d) (before : (s.bowl b).run.stepTimer ≤ d + (s.bowl b).run.extension) :
    let r := (s.bowl b).run
    let due := d + r.extension
    s.timeExpiry b =
      (s.setRun b { r with stepTimer := due, stepMs := if r.stepTimer < due then 0 else r.stepMs }).evaluate b := by
  unfold State.timeExpiry
  dsimp only
  generalize (s.bowl b).run = r at *
  simp only [running, hd]
  congr 2
  split
  · rfl
  · rw [show d + r.extension = r.stepTimer by omega, ← running]

/-- Settles O24. -/
theorem timedEventsEndSteps : Obligations.TimedEventsEndSteps := by
  intro b s hr r
  have time : exec (.timeExpiry b) s = .next (s.timeExpiry b) :=
    exec_event (fun s => s.timeExpiry b) rfl hr
  have limit : exec (.holdLimitExpiry b) s = .next (s.holdExpiry b) :=
    exec_event (fun s => s.holdExpiry b) rfl hr
  have completion : exec (.endPendingCompletion b) s = .next (s.endCompletion b) :=
    exec_event (fun s => s.endCompletion b) rfl hr
  refine ⟨fun d running hd before timed any => ?_, fun holding => ?_, fun running endPending => ?_, fun inactive => ?_⟩
  · rw [time, State.timeExpiry_due running hd before, State.evaluate_met]
    · simpa using running
    · rw [State.bowl_setRun]
      exact Step.triggersMet_time hd timed any (Nat.le_refl _)
  · refine ⟨_, limit, ?_⟩
    rw [show s.holdExpiry b = s.finishRun b from if_pos holding, State.bowl_finishRun]
    exact ⟨rfl, rfl, s.finishRun_notice b⟩
  · exact completion.trans (congrArg _ (if_pos ⟨endPending, running⟩))
  · exact completion.trans (congrArg _ (if_neg fun h => inactive h.2))

/-! ## Stall and lock timeouts (R113, R116) -/

/-- What a bowl shows at the entry into FAULT (R54). -/
structure Bowl.InFault (y x : Bowl) (cause : FaultCause) (value : Int) : Prop where
  state : y.run.state = .fault
  capture : y.run.capture =
    some ⟨cause, x.run.state, x.run.source, x.run.stepIndex, x.run.stepTimer, value, ⟨false, false, false, false⟩⟩
  prompt : y.run.prompt = none
  heat : y.heat = x.heat.forceOff
  stir : y.stir = x.stir.handForcedOff.1
  part : y.weigh.part = none

theorem Bowl.faulted_inFault (x : Bowl) (cause : FaultCause) (value : Int) :
    (x.faulted cause value).InFault x cause value := by
  unfold Bowl.faulted
  exact ⟨rfl, rfl, rfl, rfl, rfl, rfl⟩

/-- A fault report at a bowl that is not in FAULT (R54). -/
theorem State.reportFault_inFault {s : State} {b : BowlId} (h : (s.bowl b).run.state ≠ .fault) (cause : FaultCause)
    (value : Int) : ((s.reportFault b cause value).bowl b).InFault (s.bowl b) cause value := by
  rw [State.bowl_reportFault h]
  exact Bowl.faulted_inFault _ _ _

section Timeouts

variable {s : State} {b : BowlId}

theorem State.stallExpiry_running (h : (s.bowl b).stir.stall.isSome) :
    s.stallExpiry b =
      (s.setStir b { (s.bowl b).stir with stall := none }).reportFault b .stall (s.bowl b).stir.measured :=
  if_pos h

theorem State.lockExpiry_engaging (engaging : (s.bowl b).stir.lock = .engaging) (running : (s.bowl b).stir.lockTimer.isSome) :
    let t := (s.setStir b (s.bowl b).stir.release).reportFault b .lock 1
    s.lockExpiry b = t.putStir b (t.bowl b).stir.form :=
  if_pos ⟨engaging, running⟩

end Timeouts

/-- Settles O37. -/
theorem stallAndLockTimeoutsFault : Obligations.StallAndLockTimeoutsFault := by
  intro b s hr active
  have stall : exec (.stallTimerExpiry b) s = .next (s.stallExpiry b) :=
    exec_event (fun s => s.stallExpiry b) rfl hr
  have lock : exec (.lockTimerExpiry b) s = .next (s.lockExpiry b) :=
    exec_event (fun s => s.lockExpiry b) rfl hr
  refine ⟨fun timing => ⟨_, stall, ?_⟩, fun engaging timing => ⟨_, lock, ?_⟩⟩
  · rw [State.stallExpiry_running timing]
    have fault := State.reportFault_inFault (s := s.setStir b { (s.bowl b).stir with stall := none }) (b := b)
      (by simpa using active) .stall (s.bowl b).stir.measured
    have forced := fault.stir ▸ StirUnit.handForcedOff_forced _
    exact ⟨⟨fault.state, forced.setpoint, forced.order, by rw [fault.heat]; rfl, by rw [fault.heat]; rfl,
      by rw [fault.capture]; rfl, State.reportFault_notice _ b _ _⟩, forced.stall⟩
  · rw [State.lockExpiry_engaging engaging timing]
    have fault := State.reportFault_inFault (s := s.setStir b (s.bowl b).stir.release) (b := b) (by simpa using active)
      .lock 1
    have notice := State.reportFault_notice (s.setStir b (s.bowl b).stir.release) b .lock 1
    generalize (s.setStir b (s.bowl b).stir.release).reportFault b .lock 1 = t at fault notice
    have forced : (t.bowl b).stir.Forced := fault.stir ▸ StirUnit.handForcedOff_forced _
    have released : (t.bowl b).stir.lock = .released ∧ (t.bowl b).stir.lockTimer = none := by
      rw [fault.stir, State.bowl_setStir]
      exact StirUnit.form_lock_forcedOff rfl rfl rfl
    simp only [State.bowl_putStir, State.putStir_notices]
    exact ⟨⟨fault.state, StirUnit.form_setpoint_zero forced.setpoint, (StirUnit.form_order _).trans forced.order,
      by rw [fault.heat]; rfl, by rw [fault.heat]; rfl, by rw [fault.capture]; rfl, notice⟩,
      StirUnit.form_lock_forcedOff forced.order released.1 released.2⟩

/-! ## The lid opens (R49, R108, R115) -/

/-- A stirring unit whose lid is OPEN and whose motor stands (R109, R111). -/
structure StirUnit.LidStopped (u : StirUnit) : Prop where
  lid : u.lid.level = .opened
  target : u.target = 0
  setpoint : u.setpoint = 0

theorem StirUnit.LidStopped.lidChanged (u : StirUnit) : (u.lidChanged .opened).1.LidStopped := by
  have safe := StirUnit.form_safe { u with lid := switchRead .opened } (fun _ => rfl)
  have lid : (u.lidChanged .opened).1.lid.level = .opened := congrArg SwitchInput.level (StirUnit.form_lid _)
  obtain ⟨target, setpoint⟩ := safe.2.1 lid
  exact ⟨lid, target, setpoint⟩

/-- A SPEED_ZERO order keeps a motor that the lid has stopped at rest. -/
theorem StirUnit.LidStopped.handZero {u : StirUnit} (h : u.LidStopped) : u.handZero.1.LidStopped where
  lid := (congrArg SwitchInput.level (StirUnit.form_lid _)).trans h.lid
  target := u.handZero_rests.target
  setpoint := StirUnit.handZero_setpoint_zero h.setpoint

/-- A FORCED_OFF order keeps a motor that the lid has stopped at rest. -/
theorem StirUnit.LidStopped.handForcedOff {u : StirUnit} (h : u.LidStopped) : u.handForcedOff.1.LidStopped where
  lid := (congrArg SwitchInput.level (StirUnit.form_lid _)).trans h.lid
  target := u.handForcedOff_forced.target
  setpoint := u.handForcedOff_forced.setpoint

/-- A pause cause that joins keeps a motor that the lid has stopped at rest. -/
theorem Bowl.joinPause_lidStopped {x : Bowl} (join : PauseSet → PauseSet) (h : x.stir.LidStopped) :
    (x.joinPause join).stir.LidStopped := by
  unfold Bowl.joinPause
  split
  · exact h.handZero
  · exact h.handZero
  · exact h
  · exact h
  · exact h
  · exact h

/-- A fault report keeps a motor that the lid has stopped at rest. -/
theorem State.reportFault_lidStopped {s : State} {b : BowlId} (cause : FaultCause) (value : Int)
    (h : (s.bowl b).stir.LidStopped) : ((s.reportFault b cause value).bowl b).stir.LidStopped := by
  by_cases hf : (s.bowl b).run.state = .fault
  · rw [State.bowl_reportFault_further hf]
    exact h
  · rw [State.bowl_reportFault hf]
    exact h.handForcedOff

theorem State.lidOpened_lidStopped {s : State} {b : BowlId} (h : (s.bowl b).stir.LidStopped) :
    ((s.lidOpened b).bowl b).stir.LidStopped := by
  unfold State.lidOpened
  split
  · rw [State.bowl_addPause]
    exact Bowl.joinPause_lidStopped _ h
  · exact h

/-- A bowl in FAULT is not paused (R47). -/
theorem State.lidOpened_fault {s : State} {b : BowlId} (h : (s.bowl b).run.state = .fault) : s.lidOpened b = s := by
  unfold State.lidOpened
  split
  · simp only [State.addPause, h]
  · rfl

/-- A lid that opens, the lock not CONFIRMED (R108, R49). -/
theorem State.lidChange_opened {s : State} {b : BowlId} (closed : (s.bowl b).stir.lid.level = .closed)
    (lock : (s.bowl b).stir.lock ≠ .confirmed) :
    s.lidChange b .opened = (s.putStir b ((s.bowl b).stir.lidChanged .opened)).lidOpened b := by
  simp [State.lidChange, closed, lock]

/-- A lid that opens under a CONFIRMED lock (R115). -/
theorem State.lidChange_opened_locked {s : State} {b : BowlId} (closed : (s.bowl b).stir.lid.level = .closed)
    (lock : (s.bowl b).stir.lock = .confirmed) :
    s.lidChange b .opened =
      ((s.putStir b ((s.bowl b).stir.lidChanged .opened)).reportFault b .lock 2).lidOpened b := by
  simp [State.lidChange, closed, lock]

/-- Whatever a lid that opens brings about, the motor stands. -/
theorem State.lidChange_lidStopped {s : State} {b : BowlId} (closed : (s.bowl b).stir.lid.level = .closed) :
    ((s.lidChange b .opened).bowl b).stir.LidStopped := by
  have stopped : ((s.putStir b ((s.bowl b).stir.lidChanged .opened)).bowl b).stir.LidStopped := by
    rw [State.bowl_putStir]
    exact .lidChanged _
  by_cases lock : (s.bowl b).stir.lock = .confirmed
  · rw [State.lidChange_opened_locked closed lock]
    exact State.lidOpened_lidStopped (State.reportFault_lidStopped _ _ stopped)
  · rw [State.lidChange_opened closed lock]
    exact State.lidOpened_lidStopped stopped

/-- A bowl RUNNING a step that is not lid-free is paused by a lid that opens (R49). -/
theorem State.bowl_lidOpened_running {s : State} {b : BowlId} (running : (s.bowl b).run.state = .running)
    (needs : (s.bowl b).stepLidFree = false) :
    (s.lidOpened b).bowl b = (s.bowl b).paused (s.bowl b).run.pauses.withLid .running := by
  have needsLid : (s.bowl b).needsLid = true := by simp [Bowl.needsLid, running, needs]
  rw [State.lidOpened, if_pos needsLid, State.bowl_addPause, Bowl.joinPause_running _ running]

/-- Settles O39. -/
theorem lidOpeningStopsMotor : Obligations.LidOpeningStopsMotor := by
  intro b s hr
  have change (level : SwitchLevel) : exec (.lidChange b level) s = .next (s.lidChange b level) :=
    exec_event (fun s => s.lidChange b level) rfl hr
  refine ⟨fun closed => ?_, fun opened => (change .closed).trans (congrArg _ ?_)⟩
  · obtain ⟨lid, target, setpoint⟩ := State.lidChange_lidStopped closed
    refine ⟨_, change .opened, lid, target, setpoint, (BowlOps.lidChange s b .opened).within.other,
      fun lock active => ?_, fun lock running needs => ?_⟩
    · have fault := State.reportFault_inFault (s := s.putStir b ((s.bowl b).stir.lidChanged .opened)) (b := b)
        (by simpa using active) .lock 2
      rw [State.lidChange_opened_locked closed lock, State.lidOpened_fault fault.state]
      exact ⟨fault.state, by rw [fault.capture]; rfl⟩
    · rw [State.lidChange_opened closed lock, State.bowl_lidOpened_running]
      · simp only [State.bowl_putStir]
        exact ⟨rfl, rfl, rfl⟩
      · simpa using running
      · rw [State.bowl_putStir]
        exact needs
  · simp [State.lidChange, opened]

end Sys2Proof.Machine

namespace Sys2Proof.Machine

open Sys2Proof

/-! ## Mains loss (R100, R118, R124, R125) -/

/-- A bowl whose units have lost the mains (R100, R118). -/
def Bowl.loseMains (x : Bowl) : Bowl :=
  { x with
    run := x.run.noting x.stir.mainsLoss.2
    heat := x.heat.mainsLoss
    stir := x.stir.mainsLoss.1 }

theorem State.bowl_unitsLoseMains (s : State) (b : BowlId) : (s.unitsLoseMains b).bowl b = (s.bowl b).loseMains := by
  simp [State.unitsLoseMains, Bowl.loseMains, RunContext.noting]

/-- Each bowl's units lose the mains, and MAINS joins its pause causes (R124). -/
theorem State.bowl_mainsLoss (s : State) (b : BowlId) :
    s.mainsLoss.bowl b = (s.bowl b).loseMains.joinPause PauseSet.withMains := by
  let lost : State := { s with arbiter := s.arbiter.lose }
  let units := (lost.unitsLoseMains .one).unitsLoseMains .two
  cases b with
  | one =>
    have first : units.bowl .one = (s.bowl .one).loseMains :=
      (BowlOps.unitsLoseMains (lost.unitsLoseMains .one) .two).within.other.trans (lost.bowl_unitsLoseMains .one)
    have paused := (BowlOps.addPause (units.addPause .one PauseSet.withMains) .two PauseSet.withMains).within.other
    rw [← first]
    exact paused.trans (units.bowl_addPause .one _)
  | two =>
    have second : units.bowl .two = (s.bowl .two).loseMains :=
      (State.bowl_unitsLoseMains _ .two).trans
        (congrArg Bowl.loseMains (BowlOps.unitsLoseMains lost .one).within.other)
    have unpaused : (units.addPause .one PauseSet.withMains).bowl .two = units.bowl .two :=
      (BowlOps.addPause units .one _).within.other
    rw [← second]
    exact (State.bowl_addPause _ .two _).trans (congrArg (fun x => x.joinPause PauseSet.withMains) unpaused)

/-- What the operations of a bowl and a raising keep, mains loss keeps but for the arbiter. -/
theorem State.mainsLoss_keeps {α : Type} (f : State → α) (ops : ∀ b s t, BowlOps b s t → f t = f s)
    (raise : ∀ s c, f (State.raise s c) = f s) (s : State) : f s.mainsLoss = f { s with arbiter := s.arbiter.lose } :=
  (raise _ _).trans <| (ops _ _ _ (.addPause _ .two _)).trans <| (ops _ _ _ (.addPause _ .one _)).trans <|
    (ops _ _ _ (.unitsLoseMains _ .two)).trans (ops _ _ _ (.unitsLoseMains _ .one))

theorem State.mainsLoss_store (s : State) : s.mainsLoss.store = s.store := by
  simp [State.mainsLoss, State.addPause_store, State.unitsLoseMains]

/-- The units of a bowl that has lost the mains: the motor held at rest without a ceiling, the relays open, no grant (R100,
R118). -/
structure Bowl.WithoutMains (x : Bowl) : Prop where
  mainsHold : x.stir.mainsHold = true
  ceiling : x.stir.ceiling = none
  setpoint : x.stir.setpoint = 0
  grant : x.heat.grant = 0
  relayMain : x.heat.relayMain = .opened
  relayKeep : x.heat.relayKeep = .opened

theorem Bowl.withoutMains_loseMains (x : Bowl) : x.loseMains.WithoutMains :=
  ⟨StirUnit.form_mainsHold _, StirUnit.form_ceiling _, StirUnit.form_setpoint_mainsHold rfl, rfl, rfl, rfl⟩

/-- A pause keeps the units without the mains. -/
theorem Bowl.WithoutMains.paused {x : Bowl} (h : x.WithoutMains) (causes : PauseSet) (back : ResumeState) :
    (x.paused causes back).WithoutMains :=
  ⟨(StirUnit.form_mainsHold _).trans h.mainsHold, (StirUnit.form_ceiling _).trans h.ceiling,
    StirUnit.handZero_setpoint_zero h.setpoint, h.grant, rfl, rfl⟩

theorem Bowl.WithoutMains.joinPause {x : Bowl} (h : x.WithoutMains) (join : PauseSet → PauseSet) :
    (x.joinPause join).WithoutMains := by
  unfold Bowl.joinPause
  split
  · exact h.paused _ _
  · exact h.paused _ _
  · exact ⟨h.mainsHold, h.ceiling, h.setpoint, h.grant, h.relayMain, h.relayKeep⟩
  · exact h
  · exact h
  · exact h

/-- What a pause cause that joins makes of a run, by the bowl's state (R47). -/
theorem Bowl.joinPause_run (x : Bowl) (join : PauseSet → PauseSet) :
    let y := x.joinPause join
    (x.run.state = .running ∨ x.run.state = .holding → y.run.state = .paused) ∧
      (x.run.state = .running ∨ x.run.state = .holding ∨ x.run.state = .paused → y.run.pauses = join x.run.pauses) ∧
      (x.run.state = .idle ∨ x.run.state = .calibrating ∨ x.run.state = .fault →
        y.run.state = x.run.state ∧ y.run.pauses = x.run.pauses) ∧
      y.weigh = x.weigh ∧ y.cal = x.cal ∧ y.run.record = x.run.record ∧ y.run.stepTimer = x.run.stepTimer := by
  cases h : x.run.state <;> simp [Bowl.joinPause, Bowl.paused, RunContext.noting, h]

/-- A window start stays outside reset or in it. -/
theorem State.windowStart_inReset (s : State) : s.windowStart.inReset = s.inReset := by
  have handed (t : State) (a : Account) : ((t.handResults a .one).handResults a .two).inReset = t.inReset :=
    (BowlOps.handResults _ .two a).within.inReset.trans (BowlOps.handResults t .one a).within.inReset
  unfold State.windowStart
  dsimp only
  split
  · exact handed _ _
  · exact handed _ _

/-- A zero-cross while the mains is PRESENT stays outside reset or in it. -/
theorem State.halfCycle_inReset (s : State) : s.halfCycle.inReset = s.inReset := by
  unfold State.halfCycle
  split
  · split
    · simp [State.handPosition, State.windowStart_inReset]
    · simp [State.handPosition]
  · simp [State.handPosition, State.windowStart_inReset]

section GapTimer

variable {s : State}

theorem State.gapRunOut_absent {left : Nat} (gap : s.arbiter.gap = some left) (absent : s.arbiter.present = false) :
    s.gapRunOut = { s with arbiter := { s.arbiter with gap := none, restoration := 0 } } := by
  simp [State.gapRunOut, gap, absent]

theorem State.gapRunOut_present {left : Nat} (gap : s.arbiter.gap = some left) (present : s.arbiter.present = true) :
    s.gapRunOut = s.mainsLoss := by
  simp [State.gapRunOut, gap, present]

end GapTimer

/-- Settles O46. -/
theorem gapExpiryIsMainsLoss : Obligations.GapExpiryIsMainsLoss := by
  intro s hr
  have expiry (t : State) (ht : t.inReset = false) : exec .gapTimerExpiry t = .next t.gapExpiry :=
    exec_event State.gapExpiry rfl ht
  refine ⟨fun overtaken => ?_, fun present gap since => ?_, fun left gap inTime => ⟨fun absent => ?_, fun present => ?_⟩⟩
  · rw [expiry s hr, State.gapExpiry_of_overtaken s overtaken]
  · have cross : exec (.zeroCrossArrival since) s = .next s.halfCycle :=
      (exec_event (fun s => s.zeroCross since) rfl hr).trans (congrArg _ (if_pos present))
    obtain ⟨present', gap', -, overtaken'⟩ := s.halfCycle_restarts
    refine ⟨_, cross, present'.trans present, gap', ?_⟩
    rw [expiry _ (s.halfCycle_inReset.trans hr), State.gapExpiry_of_overtaken _ (by simp [overtaken', gap])]
  · rw [expiry s hr, State.gapExpiry_of_not_overtaken s inTime, State.gapRunOut_absent gap absent]
  · have lost : exec .gapTimerExpiry s = .next s.mainsLoss := by
      rw [expiry s hr, State.gapExpiry_of_not_overtaken s inTime, State.gapRunOut_present gap present]
    have arbiter : s.mainsLoss.arbiter = s.arbiter.lose :=
      State.mainsLoss_keeps State.arbiter (fun _ _ _ ops => ops.within.arbiter) (fun _ _ => rfl) s
    have image := State.mainsLoss_keeps State.image (fun _ _ _ ops => ops.within.image) (fun _ _ => rfl) s
    have ports := State.mainsLoss_keeps State.ports (fun _ _ _ ops => ops.within.ports) (fun _ _ => rfl) s
    refine ⟨_, lost, ?_⟩
    rw [arbiter]
    refine ⟨rfl, rfl, rfl, rfl, rfl, fun a p current position => ?_, rfl, rfl, rfl, rfl, rfl, fun b => ?_,
      s.mainsLoss_store, image, ports, State.raise_flag _ .mains⟩
    · simp only [Arbiter.lose, current, position]
    · rw [State.bowl_mainsLoss]
      have units := (s.bowl b).withoutMains_loseMains.joinPause PauseSet.withMains
      exact ⟨units.mainsHold, units.ceiling, units.setpoint, units.grant, units.relayMain, units.relayKeep,
        (s.bowl b).loseMains.joinPause_run PauseSet.withMains⟩

/-! ## The calibrations begin (R58, R146, R150) -/

section Calibrating

variable {pb : Byte} {b : BowlId} {s : State}

theorem State.calibrationRefusal_none (loaded : s.image.autoload ≠ .inFlight) (idle : (s.bowl b).run.state = .idle)
    (settled : (s.bowl b).heat.configSettle = none) : s.calibrationRefusal b = none := by
  simp [State.calibrationRefusal, State.autoloading, loaded, idle, settled]

theorem answerCalibrateZero_ok (hb : bowlOf pb = some b) (h : s.calibrationRefusal b = none) :
    let v := (s.bowl b).cal.values
    answerCalibrateZero [pb] s =
      ⟨s.enterCalibrating b
        { (s.bowl b).cal with
          values := { v with trim := 0 }, context := some ⟨.zero, .sweep 0, 0, none, v.trim, v.zero, v.gain⟩ },
        .accepted, []⟩ := by
  simp only [answerCalibrateZero, hb, h]

variable {r1 r0 : Byte} (inRange : 100 ≤ 256 * r1.toNat + r0.toNat ∧ 256 * r1.toNat + r0.toNat ≤ 50000)
include inRange

theorem answerCalibrateSpan_uncalibrated (hb : bowlOf pb = some b) (h : s.calibrationRefusal b = none)
    (invalid : (s.bowl b).cal.zeroValid = false) : answerCalibrateSpan [pb, r1, r0] s = refuse s .uncalibrated := by
  simp only [answerCalibrateSpan, hb, h, beNat_pair, invalid]
  rw [if_neg (by omega), if_neg (by simp)]

theorem answerCalibrateSpan_ok (hb : bowlOf pb = some b) (h : s.calibrationRefusal b = none)
    (valid : (s.bowl b).cal.zeroValid = true) :
    let v := (s.bowl b).cal.values
    answerCalibrateSpan [pb, r1, r0] s =
      ⟨s.enterCalibrating b
        { (s.bowl b).cal with
          context := some ⟨.span (256 * r1.toNat + r0.toNat), .capture 1 0, 0, none, v.trim, v.zero, v.gain⟩ },
        .accepted, []⟩ := by
  simp only [answerCalibrateSpan, hb, h, beNat_pair, valid]
  rw [if_neg (by omega), if_pos trivial]

end Calibrating

/-- A bowl that has entered CALIBRATING (R58, R80). -/
theorem State.bowl_enterCalibrating (s : State) (b : BowlId) (c : BowlCal) :
    (s.enterCalibrating b c).bowl b =
      { s.bowl b with
        run := { (s.bowl b).run with state := .calibrating }.noting (s.bowl b).stir.handZero.2
        heat := (s.bowl b).heat.handNoHeat false
        stir := (s.bowl b).stir.handZero.1
        weigh := (s.bowl b).weigh.underCalibration
        cal := c } := by
  simp [State.enterCalibrating, RunContext.noting]

/-- Settles O50. -/
theorem calibrationsBegin : Obligations.CalibrationsBegin := by
  intro x pb r1 r0 b s ht hb loaded idle settled v begun
  have admitted := State.calibrationRefusal_none loaded idle settled
  have entered (c : BowlCal) (ps : List Byte) : begun ((s.enterCalibrating b c).answered x ps .accepted []) ∧
      (((s.enterCalibrating b c).answered x ps .accepted []).bowl b).cal = c := by
    have within := (BowlOps.enterCalibrating c idle).within
    simp only [begun, State.bowl_answered, State.bowl_enterCalibrating, State.answered_store, State.answered_notices,
      State.answered_image, State.answered_arbiter]
    refine ⟨⟨rfl, rfl, StirUnit.form_order _, rfl, ?_, within.other, ?_, ?_, within.image, within.arbiter⟩, trivial⟩
    · exact congrArg (fun st => { (s.bowl b).run with state := st }) idle.symm
    · simp [State.enterCalibrating]
    · simp [State.enterCalibrating]
  refine ⟨?_, fun low high => ⟨fun invalid => ?_, fun valid => ?_⟩⟩
  · obtain ⟨next, -, ports⟩ := exec_operated (i := .calibrateZero x [pb]) rfl ht (answerCalibrateZero_ok hb admitted)
      (.enterCalibrating _ idle)
    exact ⟨_, next, (entered _ _).1, (entered _ _).2, ports⟩
  · exact exec_refused rfl ht (answerCalibrateSpan_uncalibrated ⟨low, high⟩ hb admitted invalid)
  · obtain ⟨next, -, ports⟩ := exec_operated (i := .calibrateSpan x [pb, r1, r0]) rfl ht
      (answerCalibrateSpan_ok ⟨low, high⟩ hb admitted valid) (.enterCalibrating _ idle)
    exact ⟨_, next, (entered _ _).1, (entered _ _).2, ports⟩

end Sys2Proof.Machine

namespace Sys2Proof.Machine

open Sys2Proof

/-! ## The table and the ramp (R82, R89, R90) -/

/-- The temperature of a code inside the table, by straight-line interpolation (R82). -/
theorem tempOfCode_inside {c : Nat} (low : 96 ≤ c) (high : c ≤ 3936) :
    tempOfCode c =
      (let j := min ((c - 96) / 120) 31
       let lo := sensorTable.getD j 0
       let hi := sensorTable.getD (j + 1) 0
       some (lo + roundConv (((c - 96 - 120 * j : Nat) : Int) * (hi - lo)) 120)) :=
  if_neg (by omega)

/-- A code outside the table has no temperature (R83). -/
theorem tempOfCode_outside {c : Nat} (h : c < 96 ∨ 3936 < c) : tempOfCode c = none := if_pos h

/-- The ramp advance of a unit with a target in force (R89). -/
theorem HeatUnit.rampAdvance_eq {h : HeatUnit} {t e : Int} (ht : h.target = some t) (he : h.effective = some e) :
    let remainder := h.rampRemainder + h.rampLimit.getD 0
    let moves : Int := (remainder / 60 : Nat)
    let e' := if h.rampLimit = none then e else if e < t then min (e + moves) t else max (e - moves) t
    h.rampAdvance =
      { h with
        effective := some e'
        rampRemainder := if h.rampLimit = none then h.rampRemainder else if e' = t then 0 else remainder % 60 } := by
  cases hr : h.rampLimit with
  | none =>
    have kept : h.rampAdvance = h := by simp only [HeatUnit.rampAdvance, hr]
    simp only [kept, if_true, ← he, ← hr]
  | some r => simp [HeatUnit.rampAdvance, hr, ht, he]

/-- A conversion reaches T under a STEP order, once, within 1.5 °C of the target on the side of the direction (R90). -/
theorem HeatUnit.reachesT_eq {h : HeatUnit} {t target : Int} (hm : h.temp = some t) (ht : h.target = some target) :
    h.reachesT = decide (h.stepping = true ∧ h.tReported = false ∧
      ((h.tDirection = .rising ∧ target - 15 ≤ t) ∨ (h.tDirection = .falling ∧ t ≤ target + 15))) := by
  cases hd : h.tDirection <;> simp [HeatUnit.reachesT, hm, ht, hd, Bool.and_assoc]

/-! ## The parts of a conversion (R49, R85, R90, R91) -/

section Conversion

variable {s : State} {b : BowlId}

/-- An operation of the stirring unit taken into the bowl, as one change of the bowl. -/
theorem State.putStir_eq (s : State) (b : BowlId) (r : StirUnit × Bool) :
    s.putStir b r = s.setBowl b { s.bowl b with stir := r.1, run := (s.bowl b).run.noting r.2 } := by
  obtain ⟨u, c⟩ := r
  cases c <;> simp [State.putStir, State.noteClamp, State.setFlags, State.setStir, State.setRun, RunContext.noting]

/-- Up to 200.0 °C, or with the latch set, no over-temperature is found (R85). -/
theorem State.overTemperature_below {t : Int} (h : t ≤ 2000 ∨ (s.bowl b).heat.latch = true) : s.overTemperature b t = s := by
  refine if_neg fun above => ?_
  rcases h with h | h
  · omega
  · simp [h] at above

/-- Above 200.0 °C with the latch clear, the latch sets and OVERTEMP is reported (R85). -/
theorem State.overTemperature_above {t : Int} (h : 2000 < t) (clear : (s.bowl b).heat.latch = false) :
    s.overTemperature b t = (s.setHeat b (s.bowl b).heat.setLatch).reportFault b .overtemp t :=
  if_pos ⟨h, clear⟩

/-- The lid-free test passes where the bowl is not RUNNING, its lid is CLOSED or its step lid-free (R49). -/
theorem State.retestLid_passed (h : (s.bowl b).run.state = .running → (s.bowl b).stir.lid.level = .opened →
    (s.bowl b).stepLidFree = true) : s.retestLid b = s := by
  refine if_neg ?_
  rintro ⟨running, lid, needs⟩
  have free := h running (by simpa [Bowl.lidOpen] using lid)
  simp [free] at needs

/-- The lid-free test of a RUNNING bowl with its lid OPEN fails (R49). -/
theorem State.retestLid_failed (running : (s.bowl b).run.state = .running) (lid : (s.bowl b).stir.lid.level = .opened)
    (needs : (s.bowl b).stepLidFree = false) : s.retestLid b = s.addPause b PauseSet.withLid :=
  if_pos ⟨running, by simpa [Bowl.lidOpen] using lid, needs⟩

theorem State.decideT_unordered (h : (s.bowl b).heat.ordered = false) : s.decideT b = s := by
  simp [State.decideT, h]

theorem State.regulate_unordered (h : (s.bowl b).heat.ordered = false) : s.regulate b = s := by
  simp [State.regulate, h]

theorem State.regulate_ordered (h : (s.bowl b).heat.ordered = true) :
    s.regulate b = s.setHeat b ((s.bowl b).heat.regulate (s.bowl b).cal.values) := by
  simp [State.regulate, h]

/-- A bowl after the ramp advance and the T decision, before any trigger evaluation (R89, R90). -/
def Bowl.decidedT (x : Bowl) : Bowl :=
  let h := x.heat.rampAdvance
  { x with
    heat := { h with tReported := h.tReported || h.reachesT }
    run := { x.run with flags := { x.run.flags with t := x.run.flags.t || h.reachesT } } }

/-- The ramp advance and the T decision under an order: a T that comes to be set makes an evaluation (R36, R90). -/
theorem State.decideT_ordered (h : (s.bowl b).heat.ordered = true) :
    let decided := s.setBowl b (s.bowl b).decidedT
    s.decideT b =
      if (s.bowl b).heat.rampAdvance.reachesT = true ∧ (s.bowl b).run.flags.t = false then decided.evaluate b else decided := by
  simp only [State.decideT, h, if_true]
  cases hr : (s.bowl b).heat.rampAdvance.reachesT with
  | false => simp [Bowl.decidedT, hr, State.setHeat]
  | true =>
    have flagged : (s.setHeat b { (s.bowl b).heat.rampAdvance with tReported := true }).setFlags b
        { (s.bowl b).run.flags with t := true } = s.setBowl b (s.bowl b).decidedT := by
      simp [Bowl.decidedT, hr, State.setHeat, State.setFlags, State.setRun]
    cases ht : (s.bowl b).run.flags.t with
    | false =>
      rw [if_pos rfl, State.changeFlags_changed (by simp [ht])]
      simpa using congrArg (fun s => s.evaluate b) flagged
    | true =>
      rw [if_pos rfl, State.changeFlags_same (by simp [ht])]
      simpa using flagged

/-- A conversion after which no order is in force: the reading goes to the stirring unit, and that is all (R84). -/
theorem State.temperatureInside_unordered (t : Int) :
    let u := ((s.setHeat b { (s.bowl b).heat with temp := some t, sensorOut := false }).overTemperature b t).retestLid b
    (u.bowl b).heat.ordered = false → s.temperatureInside b t = u.putStir b ((u.bowl b).stir.hotReading t) := by
  intro u unordered
  have heat : ((u.putStir b ((u.bowl b).stir.hotReading t)).bowl b).heat.ordered = false := by simpa using unordered
  show State.regulate (State.decideT (u.putStir b _) b) b = _
  rw [State.decideT_unordered heat, State.regulate_unordered heat]

/-- A bowl that has taken a reading: the heating unit its temperature, the stirring unit its hot-bowl reading (R82, R84). -/
def Bowl.readTemperature (x : Bowl) (t : Int) : Bowl :=
  { x with
    heat := { x.heat with temp := some t, sensorOut := false }
    stir := (x.stir.hotReading t).1
    run := x.run.noting (x.stir.hotReading t).2 }

/-- A conversion that neither faults nor pauses the bowl goes on to the T decision and the regulation (R82 to R84, R90, R91). -/
theorem State.temperatureInside_quiet {t : Int} (below : t ≤ 2000 ∨ (s.bowl b).heat.latch = true)
    (passed : (s.bowl b).run.state = .running → (s.bowl b).stir.lid.level = .opened →
      (s.bowl b).run.step.lidFree (s.bowl b).run.offset (s.bowl b).run.speedOverride (some t) = true) :
    s.temperatureInside b t = ((s.setBowl b ((s.bowl b).readTemperature t)).decideT b).regulate b := by
  unfold State.temperatureInside
  dsimp only
  rw [State.overTemperature_below (by simpa using below), State.retestLid_passed (by
    rw [State.bowl_setHeat]
    exact passed), State.putStir_eq]
  simp [Bowl.readTemperature, State.setHeat]

end Conversion

theorem State.temperature_inside {c : Nat} {t : Int} (h : tempOfCode c = some t) (s : State) (b : BowlId) :
    s.temperature b c = s.temperatureInside b t := by
  simp only [State.temperature, h]

theorem State.temperature_outside {c : Nat} (h : tempOfCode c = none) (s : State) (b : BowlId) :
    s.temperature b c = s.sensorOutside b c := by
  simp only [State.temperature, h]

/-- A conversion above 200.0 °C that finds the latch clear faults the bowl; its reading then goes to the stirring unit (R84,
R85). -/
theorem State.temperatureInside_above {s : State} {b : BowlId} {t : Int} (active : (s.bowl b).run.state ≠ .fault)
    (clear : (s.bowl b).heat.latch = false) (above : 2000 < t) :
    let hot : HeatUnit := { (s.bowl b).heat with temp := some t, sensorOut := false }.setLatch
    let u := (s.setHeat b hot).reportFault b .overtemp t
    (u.bowl b).InFault { s.bowl b with heat := hot } .overtemp t ∧
      s.temperatureInside b t = u.putStir b ((u.bowl b).stir.hotReading t) := by
  intro hot u
  have fault : (u.bowl b).InFault { s.bowl b with heat := hot } .overtemp t := by
    have := State.reportFault_inFault (s := s.setHeat b hot) (b := b) (by simpa using active) .overtemp t
    rwa [State.bowl_setHeat] at this
  have tested : (s.setHeat b { (s.bowl b).heat with temp := some t, sensorOut := false }).overTemperature b t = u := by
    rw [State.overTemperature_above above (by simpa using clear), State.bowl_setHeat, State.setHeat_setHeat]
  have taken := State.temperatureInside_unordered (s := s) (b := b) t
  rw [tested, State.retestLid_passed (by rw [fault.state]; exact fun h => by cases h)] at taken
  exact ⟨fault, taken (by rw [fault.heat]; rfl)⟩

/-- Settles O30. -/
theorem overTemperatureLatchesAndFaults : Obligations.OverTemperatureLatchesAndFaults := by
  intro b code t0 s hr clear active inside above
  have next : exec (.temperatureConversion b code) s = .next (s.temperature b code.toNat) :=
    exec_event (fun s => s.temperature b code.toNat) rfl hr
  obtain ⟨fault, taken⟩ := State.temperatureInside_above active clear above
  refine ⟨_, next, ?_, (BowlOps.temperature s b _).within.other, ?_⟩
  · rw [State.temperature_inside inside, taken]
    have forced := fault.stir ▸ StirUnit.handForcedOff_forced _
    simp only [State.bowl_putStir, fault.heat, fault.state, fault.prompt, fault.capture, fault.part]
    exact ⟨rfl, rfl, rfl, rfl, rfl, rfl, rfl, rfl, rfl, StirUnit.form_setpoint_zero forced.setpoint, trivial, trivial, trivial,
      trivial⟩
  · rw [State.temperature_inside inside, taken, State.putStir_notices]
    exact State.reportFault_notice _ b _ _

end Sys2Proof.Machine

namespace Sys2Proof.Machine

open Sys2Proof

/-! ## A conversion inside and outside the table (R49, R82 to R84, R89 to R91) -/

/-- A bowl that a conversion at `t` has paused for its lid (R49, R82). -/
structure Bowl.LidPaused (y x : Bowl) (t : Int) : Prop where
  state : y.run.state = .paused
  resume : y.run.resume = some .running
  pauses : y.run.pauses = { x.run.pauses with lid := true }
  record : y.run.record = x.run.record
  stepTimer : y.run.stepTimer = x.run.stepTimer
  temp : y.heat.temp = some t
  sensorOut : y.heat.sensorOut = false
  noHeat : y.heat.order = .noHeat
  speedZero : y.stir.order = .speedZero
  weigh : y.weigh = x.weigh

section Conversion

variable {s : State} {b : BowlId}

/-- A conversion that finds the lid OPEN over a step no longer lid-free pauses the bowl; the reading then goes to the stirring
unit, and no order is in force any more (R49, R84). -/
theorem State.temperatureInside_paused {t : Int} (below : t ≤ 2000 ∨ (s.bowl b).heat.latch = true)
    (running : (s.bowl b).run.state = .running) (lid : (s.bowl b).stir.lid.level = .opened)
    (needs : (s.bowl b).run.step.lidFree (s.bowl b).run.offset (s.bowl b).run.speedOverride (some t) = false) :
    ((s.temperatureInside b t).bowl b).LidPaused (s.bowl b) t ∧
      ∀ p, ((s.temperatureInside b t).notices.get p).flags.getLsbD (Cause.ofBowl b .paused).number = true := by
  let read : HeatUnit := { (s.bowl b).heat with temp := some t, sensorOut := false }
  let u := (s.setHeat b read).addPause b PauseSet.withLid
  have paused : u.bowl b = Bowl.paused { s.bowl b with heat := read } (s.bowl b).run.pauses.withLid .running := by
    rw [State.bowl_addPause, Bowl.joinPause_running _ (by simpa using running), State.bowl_setHeat]
  have taken := State.temperatureInside_unordered (s := s) (b := b) t
  rw [State.overTemperature_below (by simpa using below), State.retestLid_failed (by simpa using running)
    (by simpa using lid) (by rw [State.bowl_setHeat]; exact needs)] at taken
  have eq : s.temperatureInside b t = u.putStir b ((u.bowl b).stir.hotReading t) := taken (by
    show (u.bowl b).heat.ordered = false
    rw [paused]
    rfl)
  rw [eq, State.bowl_putStir, State.putStir_notices, paused]
  exact ⟨⟨rfl, rfl, rfl, rfl, rfl, rfl, rfl, rfl, by simp [Bowl.paused], rfl⟩,
    State.addPause_notice _ (by simpa using .inl running)⟩

/-- The bowl a conversion under an order leaves before any trigger evaluation, with the new effective target and the T flag
(R89, R90). -/
theorem Bowl.decidedT_readTemperature {x : Bowl} {temp t e : Int} (ht : x.heat.target = some t)
    (he : x.heat.effective = some e) :
    let h := x.heat
    let remainder := h.rampRemainder + h.rampLimit.getD 0
    let moves : Int := (remainder / 60 : Nat)
    let e' := if h.rampLimit = none then e else if e < t then min (e + moves) t else max (e - moves) t
    let reached := decide (h.stepping = true ∧ h.tReported = false ∧
      ((h.tDirection = .rising ∧ t - 15 ≤ temp) ∨ (h.tDirection = .falling ∧ temp ≤ t + 15)))
    (x.readTemperature temp).heat.rampAdvance.reachesT = reached ∧
      (x.readTemperature temp).decidedT =
        { x with
          heat :=
            { h with
              temp := some temp, sensorOut := false, effective := some e', tReported := h.tReported || reached
              rampRemainder := if h.rampLimit = none then h.rampRemainder else if e' = t then 0 else remainder % 60 }
          stir := (x.stir.hotReading temp).1
          run :=
            { x.run.noting (x.stir.hotReading temp).2 with
              flags := { (x.run.noting (x.stir.hotReading temp).2).flags with t := x.run.flags.t || reached } } } := by
  intro h remainder moves e' reached
  have ramp := HeatUnit.rampAdvance_eq (h := (x.readTemperature temp).heat) ht he
  have reaches : (x.readTemperature temp).heat.rampAdvance.reachesT = reached := by
    rw [ramp]
    exact HeatUnit.reachesT_eq (t := temp) (target := t) rfl ht
  refine ⟨reaches, ?_⟩
  unfold Bowl.decidedT
  dsimp only
  rw [reaches, ramp]
  rfl

/-- A conversion without an order leaves the reading and nothing else (R84). -/
theorem State.temperatureInside_read {t : Int} (below : t ≤ 2000 ∨ (s.bowl b).heat.latch = true)
    (passed : (s.bowl b).run.state = .running → (s.bowl b).stir.lid.level = .opened →
      (s.bowl b).run.step.lidFree (s.bowl b).run.offset (s.bowl b).run.speedOverride (some t) = true)
    (unordered : (s.bowl b).heat.ordered = false) :
    s.temperatureInside b t = s.setBowl b ((s.bowl b).readTemperature t) := by
  have heat : ((s.setBowl b ((s.bowl b).readTemperature t)).bowl b).heat.ordered = false := by
    rw [State.bowl_setBowl]
    exact unordered
  rw [State.temperatureInside_quiet below passed, State.decideT_unordered heat, State.regulate_unordered heat]

/-- A conversion under an order: the ramp, the T decision with the evaluation it may start, and the regulation (R89 to R91). -/
theorem State.temperatureInside_ordered {t : Int} (below : t ≤ 2000 ∨ (s.bowl b).heat.latch = true)
    (passed : (s.bowl b).run.state = .running → (s.bowl b).stir.lid.level = .opened →
      (s.bowl b).run.step.lidFree (s.bowl b).run.offset (s.bowl b).run.speedOverride (some t) = true)
    (ordered : (s.bowl b).heat.ordered = true) :
    let read := (s.bowl b).readTemperature t
    let decided := s.setBowl b read.decidedT
    s.temperatureInside b t =
      (if read.heat.rampAdvance.reachesT = true ∧ (s.bowl b).run.flags.t = false then decided.evaluate b
        else decided).regulate b := by
  have heat : ((s.setBowl b ((s.bowl b).readTemperature t)).bowl b).heat.ordered = true := by
    rw [State.bowl_setBowl]
    exact ordered
  rw [State.temperatureInside_quiet below passed, State.decideT_ordered heat]
  simp only [State.bowl_setBowl, State.setBowl_setBowl]
  rfl

/-- A first conversion outside the table reports SENSOR (R83). -/
theorem State.sensorOutside_first (code : Nat) (h : (s.bowl b).heat.sensorOut = false) :
    s.sensorOutside b code = (s.setHeat b { (s.bowl b).heat with sensorOut := true }).reportFault b .sensor code := by
  simp [State.sensorOutside, h]

/-- A further conversion outside the table changes nothing (R83). -/
theorem State.sensorOutside_further (code : Nat) (h : (s.bowl b).heat.sensorOut = true) : s.sensorOutside b code = s := by
  simp only [State.sensorOutside, if_pos h]
  rw [← h]
  exact s.setBowl_self b

/-- A SENSOR report at a bowl that is not in FAULT faults it with the code (R54, R83). -/
theorem State.bowl_sensorFault (code : Nat) (active : (s.bowl b).run.state ≠ .fault) :
    (((s.setHeat b { (s.bowl b).heat with sensorOut := true }).reportFault b .sensor code).bowl b).InFault
      { s.bowl b with heat := { (s.bowl b).heat with sensorOut := true } } .sensor code := by
  have := State.reportFault_inFault (s := s.setHeat b { (s.bowl b).heat with sensorOut := true }) (b := b)
    (by simpa using active) .sensor code
  rwa [State.bowl_setHeat] at this

/-- A SENSOR report at a bowl in FAULT joins the further causes, unless SENSOR came first (R55, R83). -/
theorem State.bowl_sensorFurther (code : Nat) (fault : (s.bowl b).run.state = .fault) :
    ((s.setHeat b { (s.bowl b).heat with sensorOut := true }).reportFault b .sensor code).bowl b =
      { s.bowl b with
        heat := { (s.bowl b).heat with sensorOut := true }
        run := { (s.bowl b).run with capture := (s.bowl b).run.capture.map (fun c => c.addFurther .sensor) } } := by
  rw [State.bowl_reportFault_further (by simpa using fault), State.bowl_setHeat]

end Conversion

/-- Settles O29. -/
theorem temperatureFromTable : Obligations.TemperatureFromTable := by
  intro b code s hr x h j lo hi temp stir limited free
  have next : exec (.temperatureConversion b code) s = .next (s.temperature b code.toNat) :=
    exec_event (fun s => s.temperature b code.toNat) rfl hr
  have other : (s.temperature b code.toNat).bowl (otherBowl b) = s.bowl (otherBowl b) :=
    (BowlOps.temperature s b _).within.other
  have taken (low : 96 ≤ code.toNat) (high : code.toNat ≤ 3936) : s.temperature b code.toNat = s.temperatureInside b temp :=
    State.temperature_inside (tempOfCode_inside low high) s b
  refine ⟨fun low high below running lid needs => ?_, fun low high below passed => ⟨fun unordered => ?_, ?_⟩,
    fun outside => ?_⟩
  · obtain ⟨paused, notice⟩ := State.temperatureInside_paused below running lid needs
    rw [next]
    rw [taken low high] at other ⊢
    exact ⟨_, rfl, paused.state, paused.resume, paused.pauses, paused.record, paused.stepTimer, paused.temp,
      paused.sensorOut, paused.noHeat, paused.speedZero, paused.weigh, other, notice⟩
  · rw [next, taken low high, State.temperatureInside_read below passed unordered]
    rfl
  · intro t e ordered ht he remainder moves e' reached advanced reported ends
    let after := s.setBowl b { x with heat := advanced, stir := stir.1, run := reported }
    have conversion : s.temperatureInside b temp =
        (if reached = true ∧ x.run.flags.t = false then after.evaluate b else after).regulate b := by
      obtain ⟨reaches, decided⟩ := Bowl.decidedT_readTemperature (x := s.bowl b) (temp := temp) ht he
      rw [State.temperatureInside_ordered below passed ordered, reaches, decided]
      rfl
    have run : (after.bowl b).run = reported := congrArg Bowl.run (State.bowl_setBowl _ _ _)
    have regulated : after.regulate b =
        s.setBowl b { x with heat := advanced.regulate x.cal.values, stir := stir.1, run := reported } := by
      have heat : (after.bowl b).heat.ordered = true := by rw [State.bowl_setBowl]; exact ordered
      rw [State.regulate_ordered heat, State.setHeat, State.bowl_setBowl, State.setBowl_setBowl]
    rw [next, taken low high, conversion]
    refine ⟨fun goesOn => congrArg _ ?_, fun ⟨reached, unset, running, met⟩ => congrArg _ ?_⟩
    · rw [← regulated]
      split
      · rename_i reports
        rw [State.evaluate_unmet fun running => ?_]
        rw [run] at running ⊢
        rw [← Bool.not_eq_true]
        exact fun met => goesOn ⟨reports.1, reports.2, running, met⟩
      · rfl
    · rw [if_pos ⟨reached, unset⟩, State.evaluate_met]
      · rw [run]
        exact running
      · rw [run]
        exact met
  · have next : exec (.temperatureConversion b code) s = .next (s.sensorOutside b code.toNat) :=
      next.trans (congrArg _ (State.temperature_outside (tempOfCode_outside outside) s b))
    refine ⟨fun again => next.trans (congrArg _ (State.sensorOutside_further _ again)), fun first => ⟨_, next, ?_⟩⟩
    have other := (BowlOps.sensorOutside s b code.toNat).within.other
    rw [State.sensorOutside_first _ first] at other ⊢
    have notice := State.reportFault_notice (s.setHeat b { h with sensorOut := true }) b .sensor code.toNat
    by_cases fault : x.run.state = .fault
    · have further := State.bowl_sensorFurther code.toNat fault
      rw [further]
      refine ⟨rfl, rfl, fault, fun active => absurd fault active, fun k _ capture => ?_, other, notice⟩
      simp only [show (s.bowl b).run.capture = some k from capture, Option.map_some, Capture.addFurther, eq_comm]
      rfl
    · have faulted := State.bowl_sensorFault code.toNat fault
      have forced := faulted.stir ▸ StirUnit.handForcedOff_forced _
      exact ⟨by rw [faulted.heat]; rfl, by rw [faulted.heat]; rfl, faulted.state, fun _ => ⟨by rw [faulted.heat]; rfl,
        forced.setpoint, faulted.part, faulted.capture⟩, fun k inFault => absurd inFault fault, other, notice⟩

end Sys2Proof.Machine

namespace Sys2Proof.Machine

open Sys2Proof

/-! ## The entry of a step (R31) -/

/-- The pause causes of a bowl after the entry of step `st` (R31). -/
def Bowl.causesAtEntry (x : Bowl) (st : Step) (present : Bool) : PauseSet :=
  ⟨x.run.pauses.request, x.run.pauses.lid || (x.lidOpen && !st.lidFree none none x.heat.temp), x.run.pauses.mains || !present⟩

/-- The run context of a bowl that has entered a step with those pause causes (R31). -/
def RunContext.entered (r : RunContext) (f : InForce) (index : Option Nat) (causes : PauseSet) (l : Bool) : RunContext :=
  { r.atEntry f index with
    state := if causes.any then .paused else r.state
    resume := if causes.any then some .running else r.resume
    pauses := causes
    partsHanded := !causes.any
    flags := { r.flags.atEntry with l := l } }

section Handings

variable (s : State) (b : BowlId)

@[simp] theorem State.giveRest_store (e : Bool) : (s.giveRest b e).store = s.store := by
  simp [State.giveRest]

@[simp] theorem State.handParts_store : (s.handParts b).store = s.store := by
  simp only [State.handParts, State.giveHeat, State.giveStir]
  split <;> split <;> simp

@[simp] theorem State.armWeigh_store (w : Option WeighPart) : (s.armWeigh b w).store = s.store := by
  cases w <;> simp [State.armWeigh]

@[simp] theorem State.bowl_raiseIf (c : Bool) (k : Cause) : (if c then s.raise k else s).bowl b = s.bowl b := by
  split <;> rfl

@[simp] theorem State.raiseIf_store (c : Bool) (k : Cause) : (if c then s.raise k else s).store = s.store := by
  split <;> rfl

/-- The causes that a step entry adds, seen on the state it begins with (R31). -/
theorem State.entryCauses_atEntry (f : InForce) (i : Option Nat) (c : Bool) :
    ((s.setRun b ((s.bowl b).run.atEntry f i)).noteClamp b c).entryCauses b =
      (s.bowl b).causesAtEntry (Step.ofRecord f.bytes) s.arbiter.present := by
  simp [State.entryCauses, Bowl.causesAtEntry, Bowl.lidOpen, Bowl.stepLidFree, RunContext.step, RunContext.atEntry]

end Handings

section StepEntry

variable (s : State) (b : BowlId) (f : InForce) (i : Option Nat)

/-- The run context of a bowl that has entered a step; its calibration is left alone (R31). -/
theorem State.enterStep_run :
    ∃ l, ((s.enterStep b f i).bowl b).run =
        (s.bowl b).run.entered f i ((s.bowl b).causesAtEntry (Step.ofRecord f.bytes) s.arbiter.present) l ∧
      ((s.enterStep b f i).bowl b).cal = (s.bowl b).cal := by
  unfold State.enterStep
  simp only [State.entryCauses_atEntry]
  generalize (s.bowl b).causesAtEntry (Step.ofRecord f.bytes) s.arbiter.present = causes
  cases paused : causes.any with
  | true =>
    cases (Step.ofRecord f.bytes).weigh <;>
      simp [RunContext.entered, RunContext.atEntry, State.bowl_armWeigh, State.bowl_giveRest, paused]
  | false =>
    cases (Step.ofRecord f.bytes).weigh <;>
      simp [RunContext.entered, RunContext.atEntry, State.bowl_armWeigh, State.bowl_handParts, paused]

/-- A step entry does not touch the recipe store (R31). -/
@[simp] theorem State.enterStep_store : (s.enterStep b f i).store = s.store := by
  simp only [State.enterStep]
  split <;> simp

/-- The entry of a step is noticed at both ports (R31). -/
theorem State.enterStep_notice (p : PortId) :
    ((s.enterStep b f i).notices.get p).flags.getLsbD (Cause.ofBowl b .step).number = true := by
  simp only [State.enterStep]
  refine (State.within_entryEnd _ b _).raised p _ ?_
  exact State.raise_flag _ _ p

/-- What the entry of a step leaves of the units of its bowl, by the pause causes it is entered with (R31, R32). -/
theorem State.enterStep_takesEntry :
    (s.bowl b).TakesEntry ((s.enterStep b f i).bowl b)
      ((s.bowl b).causesAtEntry (Step.ofRecord f.bytes) s.arbiter.present).any (Step.ofRecord f.bytes) := by
  have taken := s.enterStep_takes b f i
  simp only [State.entryCauses_atEntry] at taken
  exact taken

end StepEntry

/-- What a step's parts leave depends, of the bowl before, on its units only. -/
theorem Bowl.TakesParts.from_units {x x' y : Bowl} {isNew : Bool} {st : Step} {offset : Option Int} {override : Option Nat}
    (h : x.TakesParts y isNew st offset override) (heat : x'.heat = x.heat) (stir : x'.stir = x.stir) (cal : x'.cal = x.cal) :
    x'.TakesParts y isNew st offset override := by
  refine ⟨?_, ?_, h.heatClamps, ?_, ?_, ?_⟩
  · rw [heat, cal]
    exact h.heat
  · rw [heat]
    exact h.noHeat
  · rw [stir]
    exact h.stir
  · rw [stir]
    exact h.overrideAlone
  · rw [stir]
    exact h.noStir

/-- What a bowl has taken at a step entry, another with the same units and no less of L has taken too. -/
theorem Bowl.TakesEntry.of_units {x x' y y' : Bowl} {paused : Bool} {st : Step} (h : x.TakesEntry y paused st)
    (from_heat : x'.heat = x.heat) (from_stir : x'.stir = x.stir) (from_weigh : x'.weigh = x.weigh)
    (from_cal : x'.cal = x.cal) (heat : y'.heat = y.heat) (stir : y'.stir = y.stir) (weigh : y'.weigh = y.weigh)
    (l : y.run.flags.l = true → y'.run.flags.l = true) : x'.TakesEntry y' paused st := by
  refine ⟨fun hp => ?_, fun hp => ?_, fun w hw => ?_, fun hw => ?_, fun d hd hc => l (h.duration d hd hc)⟩
  · exact ((h.parts hp).of_eq heat stir l).from_units from_heat from_stir from_cal
  · rw [from_heat, from_stir, heat, stir]
    exact h.atRest hp
  · rw [from_weigh, weigh]
    exact ⟨(h.weigh w hw).1, fun hc => l ((h.weigh w hw).2 hc)⟩
  · rw [from_weigh, weigh]
    exact h.unarmed hw

/-! ## Loops and transfers (R41) -/

/-- The loop stack of a transfer to step `t` with the loop that opens at it, if it opens one (R41). -/
def InForce.loopsAt (f : InForce) (t : Nat) (loops : List LoopEntry) : List LoopEntry :=
  match (Step.ofRecord f.bytes).loopOpen, f.close with
  | some n, some c => ⟨t, c, min n 250⟩ :: loops
  | _, _ => loops

/-- A loop pushed changes the loop stack only, and may set L (R35, R41). -/
theorem State.bowl_pushLoop (s : State) (b : BowlId) (f : InForce) (t : Nat) :
    ∃ c, (s.pushLoop b f t).bowl b =
      { s.bowl b with run := { (s.bowl b).run with loops := f.loopsAt t (s.bowl b).run.loops }.noting c } := by
  cases opens : (Step.ofRecord f.bytes).loopOpen with
  | none => exact ⟨false, by simp [State.pushLoop, InForce.loopsAt, RunContext.noting, opens]⟩
  | some n =>
    cases closes : f.close with
    | none => exact ⟨false, by simp [State.pushLoop, InForce.loopsAt, RunContext.noting, opens, closes]⟩
    | some c => exact ⟨decide (250 < n), by simp [State.pushLoop, InForce.loopsAt, RunContext.noting, opens, closes]⟩

@[simp] theorem State.pushLoop_store (s : State) (b : BowlId) (f : InForce) (t : Nat) :
    (s.pushLoop b f t).store = s.store := by
  unfold State.pushLoop
  split <;> simp

/-- A transfer to a step that the store delivers: the step is entered and the loop it opens is pushed (R41). -/
structure State.TransfersTo (s t : State) (b : BowlId) (i : Nat) (f : InForce) : Prop where
  run : ∃ l, (t.bowl b).run =
    { (s.bowl b).run.entered f (some i) ((s.bowl b).causesAtEntry (Step.ofRecord f.bytes) s.arbiter.present) l with
      loops := f.loopsAt i (popFor (s.bowl b).run.loops i) }
  cal : (t.bowl b).cal = (s.bowl b).cal
  takes : (s.bowl b).TakesEntry (t.bowl b)
    ((s.bowl b).causesAtEntry (Step.ofRecord f.bytes) s.arbiter.present).any (Step.ofRecord f.bytes)
  store : t.store = s.store
  notice : ∀ p, (t.notices.get p).flags.getLsbD (Cause.ofBowl b .step).number = true

theorem State.transferTo_transfers {s : State} {b : BowlId} {i : Nat} {f : InForce} (delivered : s.fetch b i = some f) :
    s.TransfersTo (s.transferTo b i) b i f := by
  unfold State.transferTo
  rw [delivered]
  dsimp only
  generalize popped_eq : s.setRun b { (s.bowl b).run with loops := popFor (s.bowl b).run.loops i } = popped
  have popped_bowl : popped.bowl b = { s.bowl b with run := { (s.bowl b).run with loops := popFor (s.bowl b).run.loops i } } := by
    rw [← popped_eq, State.bowl_setRun]
  have popped_causes : (popped.bowl b).causesAtEntry (Step.ofRecord f.bytes) popped.arbiter.present =
      (s.bowl b).causesAtEntry (Step.ofRecord f.bytes) s.arbiter.present := by
    rw [popped_bowl, ← popped_eq]
    rfl
  obtain ⟨l, run, cal⟩ := popped.enterStep_run b f (some i)
  obtain ⟨c, pushed⟩ := (popped.enterStep b f (some i)).bowl_pushLoop b f i
  have takes := popped.enterStep_takesEntry b f (some i)
  rw [popped_causes] at run takes
  refine ⟨⟨l || c, ?_⟩, ?_, takes.of_units ?_ ?_ ?_ ?_ ?_ ?_ ?_ ?_, ?_, fun p => ?_⟩
  · rw [pushed, run, popped_bowl]
    rfl
  · rw [pushed, cal, popped_bowl]
  · rw [popped_bowl]
  · rw [popped_bowl]
  · rw [popped_bowl]
  · rw [popped_bowl]
  · rw [pushed]
  · rw [pushed]
  · rw [pushed]
  · rw [pushed]
    intro set
    simp [RunContext.noting, set]
  · rw [State.pushLoop_store, State.enterStep_store, ← popped_eq, State.setRun_store]
  · exact (State.within_pushLoop _ b f i).raised p _ (popped.enterStep_notice b f (some i) p)

end Sys2Proof.Machine

namespace Sys2Proof.Machine

open Sys2Proof

/-! ## START (R29) -/

section Start

variable {s : State} {b : BowlId} {slot id start length i : Nat} {users : PerBowl Bool} {weighs : Bool}

theorem State.startRefusal_none (loaded : s.image.autoload ≠ .inFlight) (idle : (s.bowl b).run.state = .idle)
    (settled : (s.bowl b).heat.configSettle = none) : s.startRefusal b = none := by
  simp [State.startRefusal, State.autoloading, loaded, idle, settled]

theorem startIndexOk_lt {steps : List Step} (ok : startIndexOk steps i = true) : i < steps.length := by
  unfold startIndexOk at ok
  exact of_decide_eq_true (Bool.and_eq_true_iff.mp ok).1

/-- The step at an index of a READY recipe is the record at its address (R25). -/
theorem State.readySteps_getD (s : State) (inside : i < length) :
    (s.readySteps start length).getD i .blank = Step.ofRecord (s.recordAt (start + i)) := by
  simp [State.readySteps, State.stepAt, inside]

/-- What START tests of a READY slot at an admitted index: the lid only (R28, R29). -/
theorem State.startSlotRefusal_ready (ready : s.store.entry slot = .ready id start length users weighs)
    (admitted : startIndexOk (s.readySteps start length) i = true)
    (calibrated : weighs = true → (s.bowl b).cal.values.gain ≠ 0) :
    s.startSlotRefusal b slot i =
      if (s.bowl b).lidOpen ∧ (Step.ofRecord (s.recordAt (start + i))).lidFree none none (s.bowl b).heat.temp = false
      then some .interlock else none := by
  have inside : i < length := by simpa [State.readySteps] using startIndexOk_lt admitted
  have weighable : ¬ (weighs = true ∧ (s.bowl b).cal.values.gain = 0) := fun h => calibrated h.1 h.2
  simp only [State.startSlotRefusal, ready, s.readySteps_getD inside]
  rw [if_neg (by simp [admitted]), if_neg weighable]

/-- The record that the store delivers for an index of a READY slot (R25). -/
theorem State.deliver_ready (ready : s.store.entry slot = .ready id start length users weighs) :
    ∃ f, s.deliver slot i = some f ∧ f.bytes = s.recordAt (start + i) := by
  simp [State.deliver, ready]

/-- A START taken: a bowl that has joined the slot transfers to a step that the store delivers (R25, R29). -/
theorem State.beginRun_joined (ready : s.store.entry slot = .ready id start length users weighs) :
    ∃ joined f, s.beginRun b slot i = State.transferTo joined b i ∧
      joined.bowl b = { s.bowl b with run := (s.bowl b).run.started (.slot slot) } ∧ joined.arbiter = s.arbiter ∧
      joined.store = (s.setUser slot b true).store ∧ joined.fetch b i = some f ∧ f.bytes = s.recordAt (start + i) := by
  have entry : ((s.setUser slot b true).setRun b ((s.bowl b).run.started (.slot slot))).store.entry slot =
      .ready id start length (users.set b true) weighs := by
    simp [State.setUser, ready, Store.entry_setEntry, Store.lt_of_ready ready]
  obtain ⟨f, delivered, bytes⟩ := State.deliver_ready (i := i) entry
  refine ⟨_, f, rfl, ?_, (s.within_setUser slot b true).arbiter, rfl, ?_, bytes.trans ?_⟩
  · simp
  · simpa [State.fetch, RunContext.started] using delivered
  · simp only [State.setUser, ready]
    rfl

theorem answerStart_refused {pb ps pi : Byte} {st : Status} (hb : bowlOf pb = some b) (slots : ps.toNat < 8)
    (tested : s.startRefusal b = none) (refused : s.startSlotRefusal b ps.toNat pi.toNat = some st) :
    answerStart [pb, ps, pi] s = refuse s st := by
  simp only [answerStart, withBowl_of hb, tested, refused, if_neg (Nat.not_le_of_lt slots)]

theorem answerStart_ok {pb ps pi : Byte} (hb : bowlOf pb = some b) (slots : ps.toNat < 8)
    (tested : s.startRefusal b = none) (admitted : s.startSlotRefusal b ps.toNat pi.toNat = none) :
    answerStart [pb, ps, pi] s = ⟨s.beginRun b ps.toNat pi.toNat, .ok, []⟩ := by
  simp only [answerStart, withBowl_of hb, tested, admitted, if_neg (Nat.not_le_of_lt slots)]

end Start

/-- The pause causes of a step entered with an empty set and nothing open over what needs the lid: MAINS, without mains (R31). -/
theorem Bowl.causesAtEntry_lidFree {x : Bowl} {st : Step} (present : Bool) (clear : x.run.pauses = .empty)
    (lid : x.stir.lid.level = .closed ∨ st.lidFree none none x.heat.temp = true) :
    x.causesAtEntry st present = ⟨false, false, !present⟩ := by
  rcases lid with lid | lid <;> simp [Bowl.causesAtEntry, Bowl.lidOpen, PauseSet.empty, clear, lid]

@[simp] theorem PauseSet.any_mains (c : Bool) : PauseSet.any ⟨false, false, c⟩ = c := by
  simp [PauseSet.any]

/-- Settles O15. -/
theorem startBeginsRun : Obligations.StartBeginsRun := by
  intro x pb ps pi b s id start length users weighs ht hb slots loaded idle settled ready admitted calibrated free
  have inside : pi.toNat < length := by simpa [State.readySteps] using startIndexOk_lt admitted
  have free_eq : free = (Step.ofRecord (s.recordAt (start + pi.toNat))).lidFree none none (s.bowl b).heat.temp := by
    simp only [free, s.readySteps_getD inside]
  have startable := State.startRefusal_none loaded idle settled
  have tested := State.startSlotRefusal_ready ready admitted calibrated
  rw [← free_eq] at tested
  refine ⟨fun opened needs => ?_, fun lid => ?_⟩
  · rw [if_pos (by simp [Bowl.lidOpen, opened, needs])] at tested
    exact exec_refused rfl ht (answerStart_refused hb slots startable tested)
  · rw [if_neg (by rcases lid with lid | lid <;> simp [Bowl.lidOpen, lid])] at tested
    obtain ⟨next, within, ports⟩ := exec_operated (i := .start x [pb, ps, pi]) rfl ht
      (answerStart_ok hb slots startable tested) (.beginRun idle tested)
    obtain ⟨joined, f, begun, joined_bowl, joined_arbiter, joined_store, fetched, bytes⟩ :=
      State.beginRun_joined (b := b) (i := pi.toNat) ready
    obtain ⟨⟨l, run⟩, cal, takes, store, notice⟩ := State.transferTo_transfers fetched
    have causes := Bowl.causesAtEntry_lidFree (x := joined.bowl b) (st := Step.ofRecord f.bytes) s.arbiter.present
      (by rw [joined_bowl]; rfl) (by rw [joined_bowl, bytes, ← free_eq]; exact lid)
    rw [joined_arbiter, causes, bytes, PauseSet.any_mains] at takes
    rw [joined_arbiter, causes] at run
    rw [joined_bowl] at run cal takes
    rw [← begun] at run cal takes store notice
    refine ⟨_, next, ?_, takes.of_units rfl rfl rfl rfl rfl rfl rfl (fun h => h), cal, ?_, notice, within.other,
      within.arbiter, within.image, within.mem, ports⟩
    · cases present : s.arbiter.present <;>
        simp [run, RunContext.entered, RunContext.atEntry, RunContext.started, FlagWord.atEntry, bytes, present]
    · rw [State.answered_store, store, joined_store, State.usedBy_setUser ready, if_pos rfl]

end Sys2Proof.Machine

namespace Sys2Proof.Machine

open Sys2Proof

/-! ## The synthetic record of a manual run (R5, R30) -/

@[simp] theorem present_true {α : Type} (v : α) : present true v = some v := rfl

@[simp] theorem present_false {α : Type} (v : α) : present false v = none := rfl

theorem map_present {α β : Type} (f : α → β) (p : Bool) (v : α) : (present p v).map f = present p (f v) := by
  cases p <;> rfl

/-- A field that is in range where its part is present is in range (R5, R30). -/
theorem present_getD_lt {p : Bool} {v n : Nat} (h : p = true → v < n) (pos : 0 < n) : (present p v).getD 0 < n := by
  cases p with
  | false => exact pos
  | true => exact h rfl

@[simp] theorem recByte_recordOfBytes (bytes : List Byte) {i : Nat} (h : i < 22) :
    recByte (recordOfBytes bytes) i = (bytes.getD i 0).toNat := by
  simp [recByte, recordOfBytes, List.getD_eq_getElem?_getD, h]

/-- A nine-bit field that two bytes spell (R5). -/
theorem nineBits_ofBytes {n : Nat} (h : n < 512) : (256 * (n / 256 % 256) + n % 256) % 512 = n := by omega

/-- The bits of a synthetic record's first byte: the two parts, and the duration (R5, R30). -/
theorem syntheticPresence_bits : ∀ a c : Bool, let n := (bit a + 4 * bit c + 16) % 256
    (n.testBit 0 = a ∧ n.testBit 2 = c ∧ n.testBit 4 = true) ∧
      n.testBit 1 = false ∧ n.testBit 3 = false ∧ n.testBit 5 = false ∧ n.testBit 6 = false ∧ n.testBit 7 = false := by
  decide

/-- The bits of a synthetic record's second byte: the trigger set {TIME} and the combine ANY (R5, R30). -/
theorem syntheticTriggers_bits :
    Nat.testBit 65 0 = true ∧ Nat.testBit 65 1 = false ∧ Nat.testBit 65 2 = false ∧ Nat.testBit 65 3 = false ∧
      Nat.testBit 65 4 = false ∧ Nat.testBit 65 7 = false := by
  decide

/-- The fields of the synthetic record (R5, R30). -/
theorem Step.ofRecord_synthetic (target : Option Nat) (stir : Option (Nat × Nat)) {duration : Nat}
    (targets : target.getD 0 < 512) (speeds : (stir.map Prod.fst).getD 0 < 512) (dirs : (stir.map Prod.snd).getD 0 < 2)
    (durations : duration < 16777216) :
    Step.ofRecord (syntheticRecord target stir duration) =
      { Step.blank with
        heat := present target.isSome ⟨(target.getD 0 : Int) * 5, none⟩
        stir := present stir.isSome
          ⟨(stir.map Prod.fst).getD 0 * 20, dirOfBit (decide ((stir.map Prod.snd).getD 0 = 1)), none⟩
        duration := some duration
        triggers := ⟨true, false, false, false⟩
        flow := .finish } := by
  obtain ⟨⟨b0, b2, b4⟩, b1, b3, b5, b6, b7⟩ := syntheticPresence_bits target.isSome stir.isSome
  have duration_bytes : 65536 * (duration / 65536 % 256) + (256 * (duration / 256 % 256) + duration % 256) = duration := by
    omega
  have dir_byte : (stir.map Prod.snd).getD 0 % 256 = (stir.map Prod.snd).getD 0 := Nat.mod_eq_of_lt (by omega)
  have continuous : ((stir.map Prod.snd).getD 0).testBit 1 = false := Nat.testBit_lt_two_pow dirs
  have dir_bit : (stir.map Prod.snd).getD 0 % 2 = (stir.map Prod.snd).getD 0 := Nat.mod_eq_of_lt dirs
  simp only [Step.ofRecord, Step.blank, syntheticRecord, recBit, recPair, flowOf, u8, u16, u24]
  simp [b0, b1, b2, b3, b4, b5, b6, b7, syntheticTriggers_bits, duration_bytes, nineBits_ofBytes targets, nineBits_ofBytes speeds,
    dir_byte, continuous, dir_bit]

theorem dirOfBit_decide (p : Prop) [Decidable p] : dirOfBit (decide p) = if p then .reverse else .forward := by
  by_cases h : p <;> simp [dirOfBit, h]

/-- The synthetic step of a MANUAL request (R30). -/
def manualStep (presence target speed dir duration : Nat) : Step :=
  { Step.blank with
    heat := present (presence.testBit 0) ⟨5 * (target : Int), none⟩
    stir := present (presence.testBit 1) ⟨20 * speed, if dir = 1 then .reverse else .forward, none⟩
    duration := some duration
    triggers := ⟨true, false, false, false⟩
    flow := .finish }

/-- The record that MANUAL's parameters ask for decodes to the synthetic step (R5, R30). -/
theorem Step.ofRecord_manual {presence target speed dir duration : Nat} {rec : Record}
    (asked : manualRecord presence target speed dir duration = some rec) (durations : duration < 16777216) :
    Step.ofRecord rec = manualStep presence target speed dir duration := by
  unfold manualRecord at asked
  dsimp only at asked
  split at asked
  · cases asked
  · rename_i fields
    obtain rfl := Option.some.inj asked
    simp only [not_or, not_and, Nat.not_le] at fields
    obtain ⟨-, -, heat, stir⟩ := fields
    rw [Step.ofRecord_synthetic _ _ ?_ ?_ ?_ durations]
    · rw [manualStep, Int.mul_comm 5, Nat.mul_comm 20, ← dirOfBit_decide]
      cases presence.testBit 0 <;> cases presence.testBit 1 <;> rfl
    · exact present_getD_lt heat (by decide)
    · rw [map_present]
      exact present_getD_lt (fun h => (stir h).1) (by decide)
    · rw [map_present]
      exact present_getD_lt (fun h => (stir h).2) (by decide)

/-! ## MANUAL (R30) -/

section Manual

variable {s : State} {b : BowlId} {pb pp t1 t0 v1 v0 pd d2 d1 d0 : Byte} {rec : Record}

theorem beNat_triple (a b c : Byte) : beNat [a, b, c] = 65536 * a.toNat + 256 * b.toNat + c.toNat := by
  simp only [beNat, List.foldl]
  omega

theorem answerManual_admitted (hb : bowlOf pb = some b)
    (asked : manualRecord pp.toNat (256 * t1.toNat + t0.toNat) (256 * v1.toNat + v0.toNat) pd.toNat
      (65536 * d2.toNat + 256 * d1.toNat + d0.toNat) = some rec)
    (tested : s.startRefusal b = none) :
    answerManual [pb, pp, t1, t0, v1, v0, pd, d2, d1, d0] s =
      if (s.bowl b).lidOpen ∧ (Step.ofRecord rec).lidFree none none (s.bowl b).heat.temp = false then refuse s .interlock
      else ⟨s.beginManual b rec, .ok, []⟩ := by
  simp only [answerManual, withBowl_of hb, beNat_pair, beNat_triple, asked, tested]

end Manual

/-- Settles O16. -/
theorem manualBeginsRun : Obligations.ManualBeginsRun := by
  intro x pb pp t1 t0 v1 v0 pd d2 d1 d0 b s rec ht hb asked loaded idle settled free ps
  have answer := answerManual_admitted hb asked (State.startRefusal_none loaded idle settled)
  refine ⟨fun opened needs => ?_, fun lid => ?_⟩
  · rw [if_pos ⟨by simp [Bowl.lidOpen, opened], needs⟩] at answer
    exact exec_refused rfl ht answer
  · rw [if_neg (by rcases lid with lid | lid <;> simp [Bowl.lidOpen, lid, free])] at answer
    obtain ⟨next, within, ports⟩ := exec_operated (i := .manual x ps) rfl ht answer (.beginManual rec idle)
    have started_bowl : (s.setRun b ((s.bowl b).run.started .manual)).bowl b =
        { s.bowl b with run := (s.bowl b).run.started .manual } := s.bowl_setRun b _
    have causes := Bowl.causesAtEntry_lidFree
      (x := (s.setRun b ((s.bowl b).run.started .manual)).bowl b) (st := Step.ofRecord rec) s.arbiter.present
      (by rw [started_bowl]; rfl) (by rw [started_bowl]; exact lid)
    obtain ⟨l, run, cal⟩ := (s.setRun b ((s.bowl b).run.started .manual)).enterStep_run b ⟨rec, none⟩ none
    have takes := (s.setRun b ((s.bowl b).run.started .manual)).enterStep_takesEntry b ⟨rec, none⟩ none
    rw [State.setRun_arbiter, causes] at run takes
    rw [started_bowl] at run cal takes
    rw [PauseSet.any_mains] at takes
    have step := Step.ofRecord_manual asked (by omega)
    refine ⟨_, next, ?_, takes.of_units rfl rfl rfl rfl rfl rfl rfl (fun h => h), cal, within.other, ?_, within.arbiter,
      within.image, ports⟩
    · have run_is : ((s.beginManual b rec).bowl b).run = _ := run
      have step_is : ((s.beginManual b rec).bowl b).run.step = _ := (congrArg RunContext.step run_is).trans step
      simp only [State.bowl_answered, step_is]
      rw [run_is]
      refine ⟨?_, rfl, rfl, rfl, rfl, rfl, rfl, rfl, rfl, rfl, rfl, rfl⟩
      cases present : s.arbiter.present <;> simp [RunContext.entered, RunContext.started]
    · exact (State.enterStep_store _ b _ none).trans (State.setRun_store _ _ _)

end Sys2Proof.Machine

namespace Sys2Proof.Machine

open Sys2Proof

/-! ## RESUME (R51) -/

section Resume

variable {s : State} {b : BowlId} {pb : Byte}

theorem answerResume_noMains (hb : bowlOf pb = some b) (absent : s.arbiter.present = false) :
    answerResume [pb] s = refuse s .wrongState := by
  simp [answerResume, withBowl_of hb, absent]

theorem answerResume_lid (hb : bowlOf pb = some b) (paused : (s.bowl b).run.state = .paused)
    (mains : s.arbiter.present = true) :
    answerResume [pb] s =
      if (s.bowl b).lidOpen ∧ (s.bowl b).needsLid then refuse s .interlock else ⟨s.resumeBowl b, .ok, []⟩ := by
  simp [answerResume, withBowl_of hb, paused, mains]

theorem Bowl.needsLid_running {x : Bowl} (paused : x.run.state = .paused) (back : x.run.resume = some .running) :
    x.needsLid = !x.stepLidFree := by
  simp [Bowl.needsLid, paused, back]

theorem Bowl.needsLid_holding {x : Bowl} (paused : x.run.state = .paused) (back : x.run.resume = some .holding) :
    x.needsLid = true := by
  simp [Bowl.needsLid, paused, back]

/-- The run context of a bowl that returns from PAUSED (R51). -/
def RunContext.resumed (r : RunContext) (st : BowlState) : RunContext :=
  { r with state := st, pauses := .empty, resume := none }

/-- A step resumed whose triggers are not met goes on with its parts handed again (R51). -/
theorem State.resumeBowl_running (back : (s.bowl b).run.resume = some .running)
    (entered : (s.bowl b).run.endPending = false)
    (unmet : (s.bowl b).run.step.triggersMet (s.bowl b).run.stepTimer (s.bowl b).run.extension (s.bowl b).run.flags = false) :
    s.resumeBowl b = (s.setRun b ((s.bowl b).run.resumed .running)).handParts b := by
  have goes_on : s.resumeBowl b = ((s.setRun b ((s.bowl b).run.resumed .running)).handParts b).evaluate b := by
    simp [State.resumeBowl, back, entered, RunContext.resumed]
  rw [goes_on, State.evaluate_unmet]
  intro _
  rw [State.bowl_handParts, State.bowl_setRun]
  exact unmet

/-- A hold resumed hands its band and its kept stir part again (R51). -/
theorem State.resumeBowl_holding {h : Hold} (back : (s.bowl b).run.resume = some .holding)
    (hold : (s.bowl b).run.hold = some h) :
    s.resumeBowl b = (s.setRun b ((s.bowl b).run.resumed .holding)).handHold b h.band false := by
  simp [State.resumeBowl, back, hold, RunContext.resumed]

end Resume

/-- The bowl after a hold's parts are handed (R52). -/
theorem State.bowl_handHold (s : State) (b : BowlId) (band : HoldBand) (isNew : Bool) :
    (s.handHold b band isNew).bowl b =
      { s.bowl b with
        heat := (s.bowl b).heat.handHold (s.bowl b).cal.values.mode band
        stir := ((s.bowl b).stirHanded isNew (s.bowl b).run.step.holdStir).1
        run := (s.bowl b).run.noting ((s.bowl b).stirHanded isNew (s.bowl b).run.step.holdStir).2 } := by
  cases h : (s.bowl b).run.step.holdStir <;>
    simp [State.handHold, State.giveStir, Bowl.stirHanded, RunContext.noting, h]

/-- A HOLD order is to the band's target (R52, R87). -/
theorem HeatUnit.handHold_order (h : HeatUnit) (mode : StageMode) (band : HoldBand) :
    (h.handHold mode band).order = .hold band.target :=
  congrArg HeatUnit.order (HeatUnit.callStage_rest _ mode)

/-- Settles O18. -/
theorem resumeReturnsToState : Obligations.ResumeReturnsToState := by
  intro x pb b s ht hb paused r
  refine ⟨fun absent => exec_refused rfl ht (answerResume_noMains hb absent), fun mains opened back => ?_, fun mains => ?_⟩
  · have needs : (s.bowl b).needsLid = true := by
      rcases back with ⟨back, needs⟩ | back
      · rw [Bowl.needsLid_running paused back, needs]
        rfl
      · exact Bowl.needsLid_holding paused back
    have answer := answerResume_lid hb paused mains
    rw [if_pos ⟨by simp [Bowl.lidOpen, opened], needs⟩] at answer
    exact exec_refused rfl ht answer
  · have answer := answerResume_lid hb paused mains
    refine ⟨fun back lid goes_on unmet => ?_, fun h back hold closed => ?_⟩
    · rw [if_neg (by rcases lid with lid | lid <;> simp [Bowl.lidOpen, Bowl.needsLid_running paused back, lid])] at answer
      obtain ⟨next, within, ports⟩ := exec_operated (i := .resume x [pb]) rfl ht answer (.resumeBowl s b)
      have handed := (s.setRun b ((s.bowl b).run.resumed .running)).bowl_handParts b
      have takes := (s.setRun b ((s.bowl b).run.resumed .running)).handParts_takes b
      rw [← State.resumeBowl_running back goes_on unmet] at handed takes
      rw [State.bowl_setRun] at handed takes
      refine ⟨_, next, ?_⟩
      rw [State.bowl_answered]
      rw [handed] at takes ⊢
      exact ⟨rfl, rfl, rfl, rfl, rfl, takes.from_units rfl rfl rfl, rfl, rfl, rfl, within.other, ports⟩
    · rw [if_neg (by simp [Bowl.lidOpen, closed])] at answer
      obtain ⟨next, -, ports⟩ := exec_operated (i := .resume x [pb]) rfl ht answer (.resumeBowl s b)
      have handed := (s.setRun b ((s.bowl b).run.resumed .holding)).bowl_handHold b h.band false
      rw [← State.resumeBowl_holding back hold, State.bowl_setRun] at handed
      refine ⟨_, next, ?_⟩
      rw [State.bowl_answered, handed]
      exact ⟨rfl, rfl, hold, HeatUnit.handHold_order _ _ _, ports⟩

end Sys2Proof.Machine

namespace Sys2Proof.Machine

open Sys2Proof

/-! ## Loops (R39, R41) -/

/-- Whether a step's break test is true (R39). -/
def Step.breaks (st : Step) (w : FlagWord) : Bool := st.breakTest.any (fun test => w.get test.1 == test.2)

theorem Step.breaks_iff (st : Step) (w : FlagWord) :
    st.breaks w = true ↔ ∃ flag sense, st.breakTest = some (flag, sense) ∧ w.get flag = sense := by
  simp [Step.breaks, Option.any_eq_true]

/-- The loop close of the top loop at its close step (R39). -/
theorem loopClose_top {st : Step} {i : Nat} {e : LoopEntry} (rest : List LoopEntry) (w : FlagWord)
    (close : st.loopClose = true) (here : e.closes = i) :
    loopClose st (some i) (e :: rest) w =
      if st.breaks w then (rest, none)
      else if 1 < e.remaining then ({ e with remaining := e.remaining - 1 } :: rest, some e.opens)
      else (rest, none) := by
  cases test : st.breakTest <;> simp [loopClose, Step.breaks, close, here, test]

/-- Without a loop close, or at another step than the close of the top loop, the stack stays (R39). -/
theorem loopClose_elsewhere {st : Step} {i : Nat} {e : LoopEntry} (rest : List LoopEntry) (w : FlagWord)
    (h : st.loopClose = false ∨ e.closes ≠ i) : loopClose st (some i) (e :: rest) w = (e :: rest, none) := by
  rcases h with h | h
  · simp [loopClose, h]
  · cases close : st.loopClose <;> simp [loopClose, h, close]

/-- The pops of a transfer: the loops around its target stay, but for a top one that opens at it (R41). -/
theorem popFor_eq (loops : List LoopEntry) (t : Nat) :
    let inside := loops.filter (fun e => decide (e.opens ≤ t ∧ t ≤ e.closes))
    popFor loops t = if inside.head?.map LoopEntry.opens = some t then inside.tail else inside := by
  simp only [popFor, inRange, ← Bool.decide_and]
  cases loops.filter (fun e => decide (e.opens ≤ t ∧ t ≤ e.closes)) with
  | nil => rfl
  | cons e rest => simp

/-! ## The end of a step (R38) -/

/-- A bowl whose step is ending, its loop close applied (R38, R39). -/
def Bowl.stepClosed (x : Bowl) : Bowl :=
  { x with
    run :=
      { x.run with
        prompt := none
        endPending := false
        loops := (loopClose x.run.step x.run.stepIndex x.run.loops x.run.flags).1 }
    weigh := x.weigh.withdraw }

/-- The state in which the flow or the loop-back of an ending step is taken (R38). -/
def State.stepClosed (s : State) (b : BowlId) : State := s.setBowl b (s.bowl b).stepClosed

section EndOfStep

variable {s : State} {b : BowlId}

@[simp] theorem State.bowl_stepClosed (s : State) (b : BowlId) : (s.stepClosed b).bowl b = (s.bowl b).stepClosed :=
  State.bowl_setBowl s b _

theorem State.stepClosed_stepIndex (s : State) (b : BowlId) :
    ((s.stepClosed b).bowl b).run.stepIndex = (s.bowl b).run.stepIndex := by
  rw [State.bowl_stepClosed]
  rfl

theorem State.fetch_stepClosed (s : State) (b : BowlId) (i : Nat) : (s.stepClosed b).fetch b i = s.fetch b i := by
  simp only [State.fetch, State.bowl_stepClosed]
  rfl

theorem State.stepClosed_eq (s : State) (b : BowlId) :
    (s.setRun b { (s.bowl b).run with
      prompt := none
      endPending := false
      loops := (loopClose (s.bowl b).run.step (s.bowl b).run.stepIndex (s.bowl b).run.loops (s.bowl b).run.flags).1
      }).withdrawWeigh b = s.stepClosed b := by
  simp [State.withdrawWeigh, State.setWeigh, State.setRun, State.stepClosed, Bowl.stepClosed]

/-- A loop-back ends the step by entering the open step again (R38, R39). -/
theorem State.endStep_loopBack {o : Nat}
    (back : (loopClose (s.bowl b).run.step (s.bowl b).run.stepIndex (s.bowl b).run.loops (s.bowl b).run.flags).2 = some o) :
    s.endStep b = (s.stepClosed b).loopBack b o := by
  simp only [State.endStep, State.stepClosed_eq, back]

/-- Without a loop-back the step ends by its flow (R38, R40). -/
theorem State.endStep_flow
    (onward : (loopClose (s.bowl b).run.step (s.bowl b).run.stepIndex (s.bowl b).run.loops (s.bowl b).run.flags).2 = none) :
    s.endStep b = (s.stepClosed b).applyFlow b (s.bowl b).run.step := by
  simp only [State.endStep, State.stepClosed_eq, onward]

end EndOfStep

end Sys2Proof.Machine

namespace Sys2Proof.Machine

open Sys2Proof

/-! ## Holding (R52) -/

theorem bandInForce_eq (c : BandChoice) (temp : Option Int) :
    bandInForce c temp = if c = .hot ∨ (c = .auto ∧ 800 ≤ temp.getD 0) then .hot else .warm := by
  cases c with
  | warm => simp [bandInForce]
  | hot => simp [bandInForce]
  | auto => cases temp <;> simp [bandInForce]

theorem bandInForce_target (c : BandChoice) (temp : Option Int) :
    (bandInForce c temp).target = if c = .hot ∨ (c = .auto ∧ 800 ≤ temp.getD 0) then 800 else 650 := by
  rw [bandInForce_eq]
  split <;> rfl

/-- The run context of a bowl that enters HOLDING (R52). -/
def RunContext.held (r : RunContext) (h : Hold) : RunContext :=
  { r with
    state := .holding
    hold := some h
    holdMs := 0
    offset := none
    speedOverride := none
    extension := 0
    endPending := false }

/-- The hold that a HOLD flow enters (R52). -/
def HeatUnit.holdOf (u : HeatUnit) (choice : BandChoice) (limit : Nat) : Hold :=
  ⟨bandInForce choice u.temp, if limit = 0 then u.holdDefault else min limit 240, 0⟩

/-- The bowl after a HOLD flow (R52). -/
theorem State.bowl_enterHold (s : State) (b : BowlId) (choice : BandChoice) (limit : Nat) :
    (s.enterHold b choice limit).bowl b =
      { s.bowl b with
        heat := (s.bowl b).heat.handHold (s.bowl b).cal.values.mode (bandInForce choice (s.bowl b).heat.temp)
        stir := ((s.bowl b).stirHanded true (s.bowl b).run.step.holdStir).1
        run :=
          ((s.bowl b).run.held ((s.bowl b).heat.holdOf choice limit)).noting
            (decide (240 < limit) || ((s.bowl b).stirHanded true (s.bowl b).run.step.holdStir).2) } := by
  simp only [State.enterHold, State.bowl_handHold, State.bowl_noteClamp, State.bowl_setRun]
  simp only [RunContext.noting, RunContext.held, HeatUnit.holdOf, Bowl.stirHanded, RunContext.step, Bool.or_assoc]

/-- A HOLD flow is noticed by none but its caller (R52). -/
theorem State.enterHold_notices (s : State) (b : BowlId) (choice : BandChoice) (limit : Nat) :
    (s.enterHold b choice limit).notices = s.notices := by
  simp only [State.enterHold, State.handHold, State.giveStir]
  split <;> simp

/-! ## The flows of an ending step (R40) -/

section Flows

variable {s : State} {b : BowlId} {st : Step} {i : Nat}

theorem State.applyFlow_finish (flow : st.flow = .finish) : s.applyFlow b st = s.finishRun b := by
  simp only [State.applyFlow, flow]
  split <;> rfl

theorem State.applyFlow_next (index : (s.bowl b).run.stepIndex = some i) (flow : st.flow = .next) :
    s.applyFlow b st = s.transferTo b (i + 1) := by
  simp only [State.applyFlow, flow, index]

theorem State.applyFlow_branch {flag : Flag} {sense : Bool} {target : Nat} (index : (s.bowl b).run.stepIndex = some i)
    (flow : st.flow = .branch flag sense target) :
    s.applyFlow b st = s.transferTo b (if (s.bowl b).run.flags.get flag = sense then target else i + 1) := by
  simp only [State.applyFlow, flow, index]

theorem State.applyFlow_hold {band : BandChoice} {limit : Nat} (index : (s.bowl b).run.stepIndex = some i)
    (flow : st.flow = .hold band limit) : s.applyFlow b st = s.enterHold b band limit := by
  simp only [State.applyFlow, flow, index]

theorem answerSkipStep_running {pb : Byte} (hb : bowlOf pb = some b) (h : (s.bowl b).run.state = .running) :
    answerSkipStep [pb] s = ⟨s.endStep b, .ok, []⟩ := by
  simp only [answerSkipStep, withBowl_of hb, h]

theorem answerSkipStep_holding {pb : Byte} (hb : bowlOf pb = some b) (h : (s.bowl b).run.state = .holding) :
    answerSkipStep [pb] s = ⟨s.finishRun b, .ok, []⟩ := by
  simp only [answerSkipStep, withBowl_of hb, h]

end Flows

end Sys2Proof.Machine

namespace Sys2Proof.Machine

open Sys2Proof

/-! ## SKIP_STEP (R46) -/

/-- The end of a step of bowl `b` has led to `u` by entering step `f` at index `i` with this loop stack (R31, R39, R41). -/
structure State.EndsInto (s u : State) (b : BowlId) (i : Nat) (f : InForce) (loops : List LoopEntry) : Prop where
  run : ∃ l, (u.bowl b).run =
    { (s.bowl b).stepClosed.run.entered f (some i)
        ((s.bowl b).stepClosed.causesAtEntry (Step.ofRecord f.bytes) s.arbiter.present) l with
      loops := loops }
  notice : ∀ p, (u.notices.get p).flags.getLsbD (Cause.ofBowl b .step).number = true

section Ends

variable {s : State} {b : BowlId} {i : Nat} {f : InForce}

/-- A loop-back enters the open step with the loop stack as the loop close left it (R39). -/
theorem State.loopBack_endsInto (fetched : s.fetch b i = some f) :
    s.EndsInto ((s.stepClosed b).loopBack b i) b i f (s.bowl b).stepClosed.run.loops := by
  have entered : (s.stepClosed b).loopBack b i = (s.stepClosed b).enterStep b f (some i) := by
    simp only [State.loopBack, State.fetch_stepClosed, fetched]
  rw [entered]
  obtain ⟨l, run, -⟩ := (s.stepClosed b).enterStep_run b f (some i)
  rw [State.bowl_stepClosed] at run
  exact ⟨⟨l, run⟩, State.enterStep_notice _ b f _⟩

/-- A transfer enters its target with the loops popped and pushed for it (R41). -/
theorem State.transferTo_endsInto (fetched : s.fetch b i = some f) :
    s.EndsInto ((s.stepClosed b).transferTo b i) b i f (f.loopsAt i (popFor (s.bowl b).stepClosed.run.loops i)) := by
  obtain ⟨⟨l, run⟩, -, -, -, notice⟩ :=
    State.transferTo_transfers (s := s.stepClosed b) ((s.fetch_stepClosed b i).trans fetched)
  rw [State.bowl_stepClosed] at run
  exact ⟨⟨l, run⟩, notice⟩

/-- With mains, the lid closed and no pause cause left, a bowl goes on RUNNING in the step it enters (R31). -/
theorem State.EndsInto.state {u : State} {loops : List LoopEntry} (h : s.EndsInto u b i f loops)
    (mains : s.arbiter.present = true) (lid : (s.bowl b).stir.lid.level = .closed) (clear : (s.bowl b).run.pauses = .empty) :
    (u.bowl b).run.state = (s.bowl b).run.state := by
  obtain ⟨⟨l, run⟩, -⟩ := h
  have causes := Bowl.causesAtEntry_lidFree (x := (s.bowl b).stepClosed) (st := Step.ofRecord f.bytes) s.arbiter.present
    clear (.inl lid)
  rw [run, causes, mains]
  rfl

end Ends

/-- Settles O20. -/
theorem skipStepEndsStep : Obligations.SkipStepEndsStep := by
  refine ⟨?_, fun st i e rest w => ?_, popFor_eq⟩
  · intro x pb b s ht hb r closed ended entered transferred
    have finishes {x' : Bowl} {u : State} (bowl : u.bowl b = x'.ended)
        (notice : ∀ p, (u.notices.get p).flags.getLsbD (Cause.ofBowl b .runEnd).number = true)
        (ports : (u.answered x [pb] .ok []).ports = (s.answered x [pb] .ok []).ports) :
        ended (u.answered x [pb] .ok []) := by
      simp only [ended, State.bowl_answered]
      rw [bowl]
      exact ⟨rfl, rfl, rfl, notice, ports⟩
    have skipped (running : r.state = .running) :=
      exec_operated (i := .skipStep x [pb]) rfl ht (answerSkipStep_running hb running) (.endStep s b)
    have enters {i : Nat} {f : InForce} {loops : List LoopEntry} (running : r.state = .running)
        (h : s.EndsInto (s.endStep b) b i f loops) :
        ∃ t, exec (.skipStep x [pb]) s = .next t ∧ entered t i f loops := by
      obtain ⟨next, -, ports⟩ := skipped running
      obtain ⟨l, run⟩ := h.run
      have state := h.state
      refine ⟨_, next, ?_⟩
      simp only [entered, State.bowl_answered]
      rw [run] at state ⊢
      exact ⟨rfl, rfl, rfl, rfl, rfl, rfl, rfl, rfl, rfl, fun mains lid clear => (state mains lid clear).trans running,
        h.notice, ports⟩
    have transfers {target : Nat} (running : r.state = .running) (eq : s.endStep b = (s.stepClosed b).transferTo b target) :
        transferred target := by
      intro f fetched
      have h := State.transferTo_endsInto fetched
      rw [← eq] at h
      exact enters running h
    refine ⟨fun holding => ?_, fun i f running back fetched => ?_, fun running onward flow => ?_,
      fun i running onward index => ⟨?_, ?_, ?_⟩⟩
    · obtain ⟨next, -, ports⟩ := exec_operated (i := .skipStep x [pb]) rfl ht (answerSkipStep_holding hb holding)
        (.finishRun s b)
      exact ⟨_, next, finishes (s.bowl_finishRun b) (s.finishRun_notice b) ports⟩
    · have h := State.loopBack_endsInto fetched
      rw [← State.endStep_loopBack back] at h
      exact enters running h
    · obtain ⟨next, -, ports⟩ := skipped running
      have ends := (State.endStep_flow onward).trans (State.applyFlow_finish flow)
      refine ⟨_, next, finishes (x' := (s.bowl b).stepClosed) ?_ ?_ ports⟩
      · rw [ends, State.bowl_finishRun, State.bowl_stepClosed]
      · rw [ends]
        exact (s.stepClosed b).finishRun_notice b
    · intro flow
      exact transfers running ((State.endStep_flow onward).trans
        (State.applyFlow_next ((s.stepClosed_stepIndex b).trans index) flow))
    · intro flag sense target flow
      have branches := State.applyFlow_branch ((s.stepClosed_stepIndex b).trans index) flow
      refine transfers running ((State.endStep_flow onward).trans (branches.trans ?_))
      rw [State.bowl_stepClosed]
      rfl
    · intro band limit flow hot
      obtain ⟨next, -, ports⟩ := skipped running
      have ends := (State.endStep_flow onward).trans (State.applyFlow_hold ((s.stepClosed_stepIndex b).trans index) flow)
      refine ⟨_, next, ?_⟩
      simp only [State.bowl_answered, State.answered_notices]
      rw [ends] at ports ⊢
      rw [State.bowl_enterHold, State.enterHold_notices, State.bowl_stepClosed]
      refine ⟨rfl, ?_, index, rfl, rfl, rfl, rfl, fun above => ?_, rfl, ?_, fun noStir => ?_, rfl, ports⟩
      · exact congrArg (fun k : HoldBand => some (Hold.mk k _ 0)) (bandInForce_eq _ _)
      · simp [RunContext.noting, above]
      · exact (HeatUnit.handHold_order _ _ _).trans (congrArg HeatOrder.hold (bandInForce_target _ _))
      · have rests : (s.bowl b).stepClosed.run.step.holdStir = none := noStir
        simp only [Bowl.stirHanded, rests, StirUnit.handZero_order]
  · intro result broken
    refine ⟨loopClose_elsewhere rest w, fun close here test => ?_, fun close here test more => ?_,
      fun close here test last => ?_⟩
    all_goals
      simp only [result, loopClose_top rest w close here]
    · rw [if_pos ((st.breaks_iff w).mpr test)]
    · rw [if_neg (mt (st.breaks_iff w).mp test), if_pos more]
    · rw [if_neg (mt (st.breaks_iff w).mp test), if_neg (Nat.not_lt_of_le last)]

end Sys2Proof.Machine

namespace Sys2Proof.Machine

open Sys2Proof

/-! ## A conversion at the channel (R60) -/

theorem isOverload_iff (r : Int) : isOverload r = true ↔ r = -8388608 ∨ r = 8388607 :=
  (Bool.or_eq_true_iff ..).trans (or_congr decide_eq_true_iff decide_eq_true_iff)

theorem Channel.isDisturbed_eq (c : Channel) :
    c.isDisturbed = decide (0 < c.seen.one ∨ 0 < c.seen.two ∨ c.holdOff.isSome) := by
  simp [Channel.isDisturbed, Bool.or_assoc]

/-- The mass is clamped exactly outside −12,000.0 to +12,000.0 g (R63). -/
theorem clampMass_ne_iff (m : Int) : clampMass m ≠ m ↔ m < -120000 ∨ 120000 < m := by
  rw [clampMass, clampInt_eq _ _ _ (by decide)]
  omega

/-- The window after a conversion with a mass (R66). -/
def Channel.nextWindow (c : Channel) (disturbed : Bool) (mass : Int) : List Int :=
  if disturbed then [] else pushWindow c.window mass

/-- The window stage takes the mass or is emptied, and S is judged from the window it leaves (R66). -/
theorem Channel.windowStage_eq (c : Channel) (band : Nat) (disturbed : Bool) :
    c.windowStage band disturbed =
      { c with
        window := c.nextWindow disturbed c.mass
        stable := judgeStable (c.nextWindow disturbed c.mass) band } := by
  cases disturbed <;> rfl

/-- S true captures a pending tare (R72). -/
theorem Channel.captureTare_eq (c : Channel) :
    c.captureTare =
      (let captures := c.stable = true ∧ c.part.map Armed.tare = some .pending
       { c with
        tarePoint := if captures then c.mass else c.tarePoint
        part := if captures then c.part.map (fun a => { a with tare := .captured }) else c.part }) := by
  by_cases captures : c.stable = true ∧ c.part.map Armed.tare = some .pending
  · simp only [if_pos captures]
    obtain ⟨stable, pending⟩ := captures
    cases part : c.part with
    | none => simp [part] at pending
    | some a =>
      have tare : a.tare = .pending := by simpa [part] using pending
      simp [Channel.captureTare, part, stable, tare]
  · simp only [if_neg captures]
    unfold Channel.captureTare
    split
    · rename_i a part
      exact if_neg fun h => captures ⟨h.1, by rw [part, Option.map_some, h.2]⟩
    · rfl

/-- A conversion at an overload sample (R61). -/
theorem Channel.convert_overload {r : Int} (c : Channel) (v : CalValues) (outside : isOverload r = true) :
    c.convert v r =
      ({ c with disturbed := c.isDisturbed, overload := true, window := [], stable := false }, false, .silent) := by
  simp only [Channel.convert, outside, if_true, Channel.unsettle]

/-- A conversion in range without calibration (R64). -/
theorem Channel.convert_uncalibrated {r : Int} {v : CalValues} (c : Channel) (inside : isOverload r = false)
    (uncalibrated : v.gain = 0) :
    c.convert v r =
      ({ c with
        disturbed := c.isDisturbed, overload := false, filter := some (c.filtered v.k r), reloadPending := false
        massAvailable := false, mass := 0, window := [], stable := false }, false, .silent) := by
  simp only [Channel.convert, inside, uncalibrated, if_true, Channel.unsettle]
  rfl

/-- The channel that has formed the mass and the added mass of a conversion, before the decision (R62 to R72). -/
def Channel.formed (c : Channel) (v : CalValues) (f mass : Int) : Channel :=
  let window := c.nextWindow c.isDisturbed mass
  let captures := judgeStable window v.band = true ∧ c.part.map Armed.tare = some .pending
  { c with
    disturbed := c.isDisturbed, overload := false, filter := some f, reloadPending := false, massAvailable := true
    mass := mass, window := window, stable := judgeStable window v.band
    tarePoint := if captures then mass else c.tarePoint
    added := mass - (if captures then mass else c.tarePoint)
    part := if captures then c.part.map (fun a => { a with tare := .captured }) else c.part }

/-- A conversion in range with calibration (R62, R63, R66, R70, R72, R74). -/
theorem Channel.convert_calibrated {r : Int} {v : CalValues} (c : Channel) (inside : isOverload r = false)
    (calibrated : v.gain ≠ 0) :
    let raw := rawMass v (c.filtered v.k r)
    let formed := c.formed v (c.filtered v.k r) (clampMass raw)
    c.convert v r = (formed.makeDecision.1, decide (clampMass raw ≠ raw), formed.makeDecision.2) := by
  simp only [Channel.convert, inside, calibrated, if_false, Channel.windowStage_eq, Channel.captureTare_eq]
  rfl

/-! ## A conversion taken by the step engine (R34, R36, R69, R74) -/

/-- The condition word after a conversion: S as reported, M and O by the decision, L by a clamp of the mass (R34, R63, R74). -/
def FlagWord.reporting (w : FlagWord) (stable clamped : Bool) (d : MassReport) : FlagWord :=
  { w with s := stable, m := d.m.getD w.m, o := w.o || d.o, l := w.l || clamped }

/-- The bowl after a conversion at its channel, before any trigger evaluation (R60). -/
def Bowl.weighed (x : Bowl) (c : Channel × Bool × MassReport) : Bowl :=
  { x with weigh := c.1, run := { x.run with flags := x.run.flags.reporting c.1.stable c.2.1 c.2.2 } }

/-- A conversion changes the channel and the condition word; a change of M or O makes a trigger evaluation (R36). -/
theorem State.weighConversion_eq (s : State) (b : BowlId) (r : Int) :
    s.weighConversion b r =
      (let y := (s.bowl b).weighed ((s.bowl b).weigh.convert (s.bowl b).cal.values r)
       if y.run.flags.m = (s.bowl b).run.flags.m ∧ y.run.flags.o = (s.bowl b).run.flags.o then s.setBowl b y
       else (s.setBowl b y).evaluate b) := by
  generalize converted : (s.bowl b).weigh.convert (s.bowl b).cal.values r = c
  obtain ⟨channel, clamped, report⟩ := c
  have word : ((s.setWeigh b channel).noteClamp b clamped).setFlags b
      ((s.bowl b).run.flags.reporting channel.stable clamped report) =
        s.setBowl b ((s.bowl b).weighed (channel, clamped, report)) := by
    cases clamped <;> simp [State.noteClamp, State.setFlags, State.setRun, State.setWeigh, Bowl.weighed]
  have flags : (((s.setWeigh b channel).noteClamp b clamped).bowl b).run.flags =
      { (s.bowl b).run.flags with l := (s.bowl b).run.flags.l || clamped } := by
    simp
  simp only [State.weighConversion, converted]
  have reported : ((s.setWeigh b channel).noteClamp b clamped).takeMassReport b channel.stable report =
      ((s.setWeigh b channel).noteClamp b clamped).changeFlags b
        ((s.bowl b).run.flags.reporting channel.stable clamped report) := by
    simp only [State.takeMassReport, flags, FlagWord.reporting]
  rw [reported]
  split
  · rename_i same
    rw [State.changeFlags_same, word]
    rw [flags]
    exact ⟨rfl, same.1, same.2, rfl, rfl⟩
  · rename_i changed
    rw [State.changeFlags_changed, word]
    rw [flags]
    exact fun same => changed ⟨same.2.1, same.2.2.1⟩

/-- A conversion without a decision or a clamp reports S alone (R61, R64, R69). -/
theorem State.weighConversion_silent {s : State} {b : BowlId} {r : Int} {channel : Channel}
    (converted : (s.bowl b).weigh.convert (s.bowl b).cal.values r = (channel, false, .silent)) :
    s.weighConversion b r =
      s.setBowl b
        { s.bowl b with
          weigh := channel
          run := { (s.bowl b).run with flags := { (s.bowl b).run.flags with s := channel.stable } } } := by
  rw [State.weighConversion_eq, converted]
  simp [Bowl.weighed, FlagWord.reporting, MassReport.silent]

/-- Settles O27. -/
theorem conversionFormsMass : Obligations.ConversionFormsMass := by
  intro b sample s released weighing x v c w r disturbed f m mass window
  have next : exec (.loadCellConversion b sample) s = .next (s.weighConversion b r) :=
    (exec_event (fun s => s.loadCell b sample.toInt) rfl released).trans (congrArg _ (if_neg weighing))
  have judged : c.isDisturbed = disturbed := c.isDisturbed_eq
  have inside (low : r ≠ -8388608) (high : r ≠ 8388607) : isOverload r = false :=
    Bool.eq_false_iff.mpr fun h => ((isOverload_iff r).mp h).elim low high
  rw [next]
  refine ⟨fun outside => ?_, fun low high uncalibrated => ?_, fun low high calibrated => ?_⟩
  · rw [State.weighConversion_silent (c.convert_overload v ((isOverload_iff r).mpr outside)), judged]
  · rw [State.weighConversion_silent (c.convert_uncalibrated (inside low high) uncalibrated), judged]
    rfl
  · refine ⟨judgeStable window v.band, judgeStable_iff window v.band, ?_⟩
    intro captures tare formed d w' after
    have clamp : clampMass m = mass := clampInt_eq _ _ _ (by decide)
    have formed_eq : c.formed v f mass = formed := by
      unfold Channel.formed
      rw [judged]
      rfl
    have converted : c.convert v r = (d.1, decide (m < -120000 ∨ 120000 < m), d.2) := by
      have clamps : decide (clampMass m ≠ m) = decide (m < -120000 ∨ 120000 < m) := decide_eq_decide.mpr (clampMass_ne_iff m)
      refine (c.convert_calibrated (inside low high) calibrated).trans ?_
      show ((c.formed v f (clampMass m)).makeDecision.1, decide (clampMass m ≠ m),
        (c.formed v f (clampMass m)).makeDecision.2) = _
      rw [clamps, clamp, formed_eq]
    have stable : d.1.stable = judgeStable window v.band := congrArg Channel.stable formed.makeDecision_keeps
    have word : x.weighed (d.1, decide (m < -120000 ∨ 120000 < m), d.2) =
        { x with weigh := d.1, run := { x.run with flags := w' } } := by
      simp only [Bowl.weighed, FlagWord.reporting, stable]
      rfl
    rw [State.weighConversion_eq, converted, word]

end Sys2Proof.Machine

namespace Sys2Proof.Machine

open Sys2Proof

/-! ## TARE (R77) -/

section Tare

variable {pb : Byte} {b : BowlId} {s : State} (hb : bowlOf pb = some b) (loaded : s.image.autoload ≠ .inFlight)
  (weighing : (s.bowl b).run.state ≠ .calibrating) (calibrated : (s.bowl b).cal.values.gain ≠ 0)
include hb loaded weighing calibrated

theorem answerTare_unstable (unstable : (s.bowl b).weigh.stable = false) : answerTare [pb] s = refuse s .unstable := by
  simp [answerTare, withBowl_of hb, State.autoloading, loaded, weighing, calibrated, unstable]

theorem answerTare_ok (stable : (s.bowl b).weigh.stable = true) :
    answerTare [pb] s = ⟨s.setWeigh b (s.bowl b).weigh.takeTare, .ok, s24 (s.bowl b).weigh.mass⟩ := by
  simp [answerTare, withBowl_of hb, State.autoloading, loaded, weighing, calibrated, stable]

end Tare

/-- Settles O26. -/
theorem tareTakesCurrentMass : Obligations.TareTakesCurrentMass := by
  intro x pb b s ht hb loaded weighing calibrated c
  refine ⟨fun unstable => ?_, fun stable => ?_⟩
  · exact exec_refused rfl ht (answerTare_unstable hb loaded weighing calibrated unstable)
  · exact exec_answered rfl ht (answerTare_ok hb loaded weighing calibrated stable) rfl

/-! ## The decision (R74) -/

section Decision

variable {c : Channel}

/-- A channel whose M stands reported set exactly after an in-band decision (R74). -/
def Channel.ReportsMatch (c : Channel) : Prop := c.mReported = true ↔ c.decision = .inBand

/-- A decision leaves M reported set exactly after in band (R74). -/
theorem Channel.ReportsMatch.makeDecision (reports : c.ReportsMatch) : c.makeDecision.1.ReportsMatch := by
  unfold Channel.makeDecision
  split
  · split
    · dsimp only
      split
      · split
        · simp [Channel.ReportsMatch]
        · exact reports
      · split
        · split
          · exact reports
          · simp [Channel.ReportsMatch]
        · split
          · exact reports
          · simp [Channel.ReportsMatch]
    · exact reports
  · exact reports

variable {a : Armed} (armed : c.part = some a) (captured : a.tare = .captured) (stable : c.stable = true)
include armed captured stable

/-- Below the band: a reported M is cleared (R74). -/
theorem Channel.makeDecision_low (low : c.massOverTare < a.target - a.tolerance) :
    c.makeDecision =
      if c.mReported then ({ c with decision := .undecided, mReported := false }, ⟨some false, false⟩) else (c, .silent) := by
  simp only [Channel.makeDecision, armed, captured, stable, low, and_self, if_true]

/-- In the band, both bounds included: M is reported set, once (R74). -/
theorem Channel.makeDecision_inBand (lower : a.target - a.tolerance ≤ c.massOverTare)
    (upper : c.massOverTare ≤ a.target + a.tolerance) :
    c.makeDecision =
      if c.decision = .inBand then (c, .silent)
      else ({ c with decision := .inBand, mReported := true }, ⟨some true, false⟩) := by
  simp only [Channel.makeDecision, armed, captured, stable, lower.not_gt, upper, and_self, if_true, if_false]

/-- Above the band: O is set, once, and a reported M is cleared (R74). -/
theorem Channel.makeDecision_over (lower : a.target - a.tolerance ≤ c.massOverTare)
    (above : a.target + a.tolerance < c.massOverTare) :
    c.makeDecision =
      if c.decision = .over then (c, .silent)
      else ({ c with decision := .over, mReported := false }, ⟨if c.mReported then some false else none, true⟩) := by
  simp only [Channel.makeDecision, armed, captured, stable, lower.not_gt, above.not_ge, and_self, if_true, if_false]

end Decision

/-- Settles O28: one equation for each band, and M stands reported exactly after an in-band decision. -/
theorem decisionByAddedMass : Obligations.DecisionByAddedMass := by
  intro c a armed captured stable reports x d
  refine ⟨fun low => ?_, fun lower upper => ?_, fun above lower => ?_, Channel.ReportsMatch.makeDecision reports⟩
  · have decided : d = _ := c.makeDecision_low armed captured stable low
    cases reported : c.mReported <;> simp [decided, reported, MassReport.silent]
  · have decided : d = _ := c.makeDecision_inBand armed captured stable lower upper
    by_cases inBand : c.decision = .inBand
    · simp [decided, inBand, reports.mpr inBand, MassReport.silent]
    · simp [decided, inBand, mt reports.mp inBand]
  · have decided : d = _ := c.makeDecision_over armed captured stable lower above
    by_cases already : c.decision = .over
    · have unreported : c.mReported = false := by simpa [already] using reports
      simp [decided, already, unreported, MassReport.silent]
    · simp [decided, already]

end Sys2Proof.Machine

namespace Sys2Proof.Machine

open Sys2Proof

/-! ## A tacho completion (R67, R68, R107) -/

/-- A speed seen above 0 is motion (R67). -/
theorem PerBowl.still_eq_false {p : PerBowl Nat} {b : BowlId} (moving : 0 < p.get b) : p.still = false := by
  refine Bool.eq_false_iff.mpr fun still => ?_
  obtain ⟨one, two⟩ : p.one = 0 ∧ p.two = 0 := by simpa [PerBowl.still] using still
  cases b with
  | one => exact moving.ne' one
  | two => exact moving.ne' two

theorem Channel.seeSpeed_holdOff_moving {v : Nat} (moving : 0 < v) (c : Channel) (b : BowlId) :
    (c.seeSpeed b v).holdOff = none := by
  have turning : (c.seen.set b v).still = false := PerBowl.still_eq_false (b := b) (by simpa using moving)
  simp [Channel.seeSpeed, turning]

/-- The last motor seen moving comes to 0 (R68). -/
theorem Channel.seeSpeed_holdOff_stopped {c : Channel} {b : BowlId} (last : c.seen = (PerBowl.mk 0 0).set b (c.seen.get b))
    (moving : 0 < c.seen.get b) : (c.seeSpeed b 0).holdOff = some 1500 := by
  have stopped : (c.seen.set b 0).still = true := by
    rw [last]
    cases b <;> rfl
  simp [Channel.seeSpeed, stopped, PerBowl.still_eq_false moving]

theorem standstillAfter_moving {v : Nat} (moving : 0 < v) (st : Standstill) : standstillAfter st v = .notReached := by
  simp [standstillAfter, moving.ne']

/-- The first reading of 0 starts the standstill timer (R107). -/
theorem standstillAfter_stopped : standstillAfter .notReached 0 = .timing 300 := rfl

/-- What a formation and the release of the lock keep, the release test keeps (R114). -/
theorem StirUnit.tryRelease_keeps {α : Type} (f : StirUnit → α) (form : ∀ v : StirUnit, f v.form.1 = f v)
    (release : ∀ v : StirUnit, f v.release = f v) (u : StirUnit) : f u.tryRelease.1 = f u := by
  unfold StirUnit.tryRelease
  split
  · exact (form _).trans (release u)
  · rfl

theorem StirUnit.tacho_measured (u : StirUnit) (pulses : Nat) : (u.tacho pulses).1.measured = speedOfPulses pulses :=
  StirUnit.tryRelease_keeps StirUnit.measured StirUnit.form_measured StirUnit.release_measured _

theorem StirUnit.tacho_standstill (u : StirUnit) (pulses : Nat) :
    (u.tacho pulses).1.standstill = standstillAfter u.standstill (speedOfPulses pulses) :=
  StirUnit.tryRelease_keeps StirUnit.standstill StirUnit.form_standstill StirUnit.release_standstill _

/-- A measured speed handed to both weighing channels (R67). -/
def State.showSpeed (s : State) (b : BowlId) (v : Nat) : State :=
  let t := s.setWeigh .one ((s.bowl .one).weigh.seeSpeed b v)
  t.setWeigh .two ((t.bowl .two).weigh.seeSpeed b v)

theorem State.bowl_showSpeed (s : State) (b : BowlId) (v : Nat) (c : BowlId) :
    (s.showSpeed b v).bowl c = { s.bowl c with weigh := (s.bowl c).weigh.seeSpeed b v } := by
  cases c <;> rfl

theorem State.tacho_eq (s : State) (b : BowlId) (pulses : Nat) :
    s.tacho b pulses = (s.showSpeed b (speedOfPulses pulses)).putStir b ((s.bowl b).stir.tacho pulses) := by
  cases b <;> rfl

theorem State.bowl_tacho (s : State) (b : BowlId) (pulses : Nat) :
    (s.tacho b pulses).bowl b =
      { s.bowl b with
        weigh := (s.bowl b).weigh.seeSpeed b (speedOfPulses pulses)
        stir := ((s.bowl b).stir.tacho pulses).1
        run := (s.bowl b).run.noting ((s.bowl b).stir.tacho pulses).2 } := by
  rw [State.tacho_eq, State.bowl_putStir, State.bowl_showSpeed]
  rfl

theorem State.other_tacho (s : State) (b : BowlId) (pulses : Nat) :
    (s.tacho b pulses).bowl (otherBowl b) =
      { s.bowl (otherBowl b) with weigh := (s.bowl (otherBowl b)).weigh.seeSpeed b (speedOfPulses pulses) } := by
  rw [State.tacho_eq, State.other_putStir, State.bowl_showSpeed]

/-- What a tacho completion leaves of either bowl but its stirring unit: the channel has seen the speed, and the run differs in
its condition word at most (R35, R67). -/
theorem State.tacho_keeps (s : State) (b : BowlId) (pulses : Nat) (c : BowlId) :
    ((s.tacho b pulses).bowl c).weigh = (s.bowl c).weigh.seeSpeed b (speedOfPulses pulses) ∧
      ((s.tacho b pulses).bowl c).heat = (s.bowl c).heat ∧ ((s.tacho b pulses).bowl c).cal = (s.bowl c).cal ∧
      { ((s.tacho b pulses).bowl c).run with flags := (s.bowl c).run.flags } = (s.bowl c).run := by
  rcases eq_or_otherBowl b c with rfl | rfl
  · rw [State.bowl_tacho]
    exact ⟨rfl, rfl, rfl, rfl⟩
  · rw [State.other_tacho]
    exact ⟨rfl, rfl, rfl, rfl⟩

/-- Settles O35. -/
theorem tachoMeasuresAndDisturbs : Obligations.TachoMeasuresAndDisturbs := by
  intro b pulses s released v
  have next : exec (.tachoMeasurement b pulses) s = .next (s.tacho b pulses) :=
    exec_event (fun s => s.tacho b pulses) rfl released
  have stir : ((s.tacho b pulses).bowl b).stir = ((s.bowl b).stir.tacho pulses).1 := by rw [State.bowl_tacho]
  have measured := (s.bowl b).stir.tacho_measured pulses
  have standstill := (s.bowl b).stir.tacho_standstill pulses
  have speed : speedOfPulses pulses = v := rfl
  rw [speed, ← stir] at measured standstill
  refine ⟨⟨_, next, measured, fun moving => ?_, fun stopped turned => ?_, fun c => ?_, fun c => ?_, ?_, ?_, ?_, ?_, ?_, ?_⟩,
    exec_event (fun s => s.setWeigh b (s.bowl b).weigh.holdOffExpiry) rfl released⟩
  · rw [standstill, standstillAfter_moving moving]
  · rw [standstill, stopped, turned, standstillAfter_stopped]
  · rw [(s.tacho_keeps b pulses c).1, speed]
    refine ⟨rfl, fun moving => Channel.seeSpeed_holdOff_moving moving _ _, fun stopped last moving => ?_⟩
    rw [stopped]
    exact Channel.seeSpeed_holdOff_stopped last moving
  · obtain ⟨weigh, rest⟩ := s.tacho_keeps b pulses c
    exact ⟨weigh ▸ rfl, rest⟩
  · rw [State.other_tacho]
  all_goals simp [State.tacho]

end Sys2Proof.Machine

namespace Sys2Proof.Machine

open Sys2Proof

/-! ## The end of a calibration (R151, R152) -/

/-- A bowl whose calibration has ended with an outcome (R151). -/
def Bowl.calibrationEnded (x : Bowl) (outcome : CalOutcome) : Bowl :=
  { x with run := { x.run with state := .idle }, cal := x.cal.finish outcome, weigh := x.weigh.reload }

theorem State.bowl_endCalibration (s : State) (b : BowlId) (outcome : CalOutcome) :
    (s.endCalibration b outcome).bowl b = (s.bowl b).calibrationEnded outcome := by
  simp [State.endCalibration, State.closeCalibration, Bowl.calibrationEnded]

/-- The end of a calibration is noticed at both ports (R151). -/
theorem State.endCalibration_notice (s : State) (b : BowlId) (outcome : CalOutcome) (p : PortId) :
    ((s.endCalibration b outcome).notices.get p).flags.getLsbD (Cause.ofBowl b .calDone).number = true :=
  State.raise_flag _ _ p

/-- On any outcome but SUCCESS the saved trim, Z and G return (R151). -/
theorem BowlCal.finish_restores {c : BowlCal} {k : CalContext} {outcome : CalOutcome} (context : c.context = some k)
    (failed : outcome ≠ .success) :
    c.finish outcome =
      { c with
        values := { c.values with trim := k.savedTrim, zero := k.savedZero, gain := k.savedGain }
        context := none, lastOutcome := some outcome } := by
  cases outcome with
  | success => exact absurd rfl failed
  | trimRange | disturbed | spanTooSmall | overload | aborted => simp only [BowlCal.finish, context]

section Abort

variable {pb : Byte} {b : BowlId} {s : State} (hb : bowlOf pb = some b)
include hb

theorem answerAbortCalibration_ok (calibrating : (s.bowl b).run.state = .calibrating) :
    answerAbortCalibration [pb] s = ⟨s.endCalibration b .aborted, .ok, []⟩ := by
  simp only [answerAbortCalibration, hb, State.abortCalibration, calibrating, if_true]

theorem answerAbortCalibration_refused (weighing : (s.bowl b).run.state ≠ .calibrating) :
    answerAbortCalibration [pb] s = refuse s .wrongState := by
  simp only [answerAbortCalibration, hb, State.abortCalibration, weighing, if_false]

end Abort

/-- Settles O52. -/
theorem abortEndsCalibration : Obligations.AbortEndsCalibration := by
  intro x pb b s ht hb
  refine ⟨fun weighing => exec_refused rfl ht (answerAbortCalibration_refused hb weighing), fun k calibrating context => ?_⟩
  obtain ⟨next, within, ports⟩ := exec_operated (i := .abortCalibration x [pb]) rfl ht
    (answerAbortCalibration_ok hb calibrating) (.endCalibration .aborted calibrating)
  refine ⟨_, next, ?_⟩
  simp only [State.bowl_answered, State.answered_notices, State.bowl_endCalibration, Bowl.calibrationEnded,
    BowlCal.finish_restores context (by decide : CalOutcome.aborted ≠ .success)]
  exact ⟨trivial, trivial, trivial, trivial, trivial, trivial, trivial, rfl, within.other, ports, s.endCalibration_notice b _⟩

end Sys2Proof.Machine

namespace Sys2Proof.Machine

open Sys2Proof

/-! ## A conversion at the calibration block (R147 to R150) -/

section Sweep

variable {c : BowlCal} {x : CalContext} {t : Nat} {r : Int} (context : c.context = some x) (phase : x.phase = .sweep t)
include context phase

theorem BowlCal.step_sweep (disturbed : Bool) : c.step r disturbed = sweepStep c x t r := by
  simp only [BowlCal.step, context, phase]

variable (third : x.count = 2)
include third

/-- A negative reading moves the sweep to the next trim (R147). -/
theorem BowlCal.step_sweep_next (negative : r < 0) (more : t < 255) (disturbed : Bool) :
    c.step r disturbed =
      .goOn
        { c with
          values := { c.values with trim := t + 1 }
          context := some { x with phase := .sweep (t + 1), count := 0 } } := by
  have inside : r ≠ overloadHigh := by unfold overloadHigh; omega
  simp [BowlCal.step_sweep context phase, sweepStep, third, inside, negative, more]

/-- A reading of 0 or more locks the trim and begins the capture (R147). -/
theorem BowlCal.step_sweep_lock (low : 0 ≤ r) (high : r < 8388607) (moved : 1 ≤ t) (disturbed : Bool) :
    c.step r disturbed = .goOn { c with context := some { x with phase := .capture 1 0, count := 0, lockedTrim := some t } } := by
  have inside : r ≠ overloadHigh := by unfold overloadHigh; omega
  have locked : t ≠ 0 := by omega
  simp [BowlCal.step_sweep context phase, sweepStep, third, inside, low.not_gt, locked]

/-- The sweep fails at the last trim, at the first, and at the upper overload value (R147). -/
theorem BowlCal.step_sweep_fails (fails : (r < 0 ∧ t = 255) ∨ (0 ≤ r ∧ t = 0) ∨ r = 8388607) (disturbed : Bool) :
    c.step r disturbed = .finish c .trimRange := by
  by_cases top : r = overloadHigh
  · simp [BowlCal.step_sweep context phase, sweepStep, third, top]
  · rcases fails with ⟨negative, last⟩ | ⟨low, first⟩ | high
    · simp [BowlCal.step_sweep context phase, sweepStep, third, top, negative, last]
    · simp [BowlCal.step_sweep context phase, sweepStep, third, top, low.not_gt, first]
    · exact absurd high top

end Sweep

section Capture

variable {c : BowlCal} {x : CalContext} {attempt : Nat} {sum r : Int}

/-- The last undisturbed sample of a capture in range gives its result (R148). -/
theorem BowlCal.step_capture_last (context : c.context = some x) (phase : x.phase = .capture attempt sum)
    (last : x.count = 31) (inside : isOverload r = false) : c.step r false = captureResult c x (sum + r) := by
  simp [BowlCal.step, context, phase, captureStep, inside, last]

theorem captureResult_zero (kind : x.kind = .zero) :
    captureResult c x sum =
      .finish { c with values := { c.values with zero := roundConv sum 32 }, zeroValid := true } .success := by
  simp only [captureResult, kind]

variable {reference : Nat} (kind : x.kind = .span reference)
include kind

theorem captureResult_span_small (small : roundConv sum 32 - c.values.zero < 10000) :
    captureResult c x sum = .finish c .spanTooSmall := by
  simp only [captureResult, kind, small, if_true]

theorem captureResult_span (enough : 10000 ≤ roundConv sum 32 - c.values.zero) :
    captureResult c x sum =
      .finish
        { c with
          values := { c.values with
            gain := (roundConv (reference * 2 ^ 20) (roundConv sum 32 - c.values.zero).toNat).toNat } }
        .success := by
  simp only [captureResult, kind, enough.not_gt, if_false]

end Capture

/-- `roundConv` answers the floor or the integer after it. -/
theorem roundConv_floor (a : Int) (b : Nat) : a / b ≤ roundConv a b ∧ roundConv a b ≤ a / b + 1 := by
  rcases roundConv_cases a b with ⟨-, down⟩ | ⟨-, up⟩ | ⟨-, -, down | up⟩ <;> omega

/-- The gain of a span calibration fits in the three bytes of the image (R142, R150). -/
theorem spanGain_bounds {reference n : Nat} (weight : reference ≤ 50000) (enough : 10000 ≤ n) :
    0 ≤ roundConv ((reference : Int) * 2 ^ 20) n ∧ roundConv ((reference : Int) * 2 ^ 20) n ≤ 16777215 := by
  have nonneg : 0 ≤ (reference : Int) * 2 ^ 20 / (n : Int) := Int.ediv_nonneg (by omega) (by omega)
  have small : (reference : Int) * 2 ^ 20 / (n : Int) < 16777215 := Int.ediv_lt_of_lt_mul (by omega) (by omega)
  obtain ⟨floor, next⟩ := roundConv_floor ((reference : Int) * 2 ^ 20) n
  omega

/-! ## A conversion of a CALIBRATING bowl (R80) -/

section Conversion

variable {s : State} {b : BowlId} {r : Int} {cal : BowlCal}

/-- A CALIBRATING bowl that has judged the disturbance of a conversion and reported S false (R80). -/
def Bowl.judged (x : Bowl) : Bowl :=
  { x with weigh := x.weigh.judgeOnly, run := { x.run with flags := { x.run.flags with s := false } } }

theorem State.bowl_calibrationConversion_goOn (step : (s.bowl b).cal.step r (s.bowl b).weigh.isDisturbed = .goOn cal) :
    (s.calibrationConversion b r).bowl b = { (s.bowl b).judged with cal := cal } := by
  simp [State.calibrationConversion, State.reportStable, Channel.judgeOnly, step, Bowl.judged]

theorem State.calibrationConversion_finish {outcome : CalOutcome}
    (step : (s.bowl b).cal.step r (s.bowl b).weigh.isDisturbed = .finish cal outcome) :
    s.calibrationConversion b r = (s.setBowl b { (s.bowl b).judged with cal := cal }).endCalibration b outcome := by
  simp [State.calibrationConversion, State.reportStable, Channel.judgeOnly, step, Bowl.judged, State.setFlags, State.setCal,
    State.setRun, State.setWeigh]

/-- The channel of a calibrating bowl has its disturbance judged and may be told to reload: its mass, filter and tare point
stay (R80, R151). -/
theorem State.calibrationConversion_keepsWeighing (s : State) (b : BowlId) (r : Int) :
    let c := (s.bowl b).weigh
    let d := ((s.calibrationConversion b r).bowl b).weigh
    d.mass = c.mass ∧ d.filter = c.filter ∧ d.tarePoint = c.tarePoint := by
  cases step : (s.bowl b).cal.step r (s.bowl b).weigh.isDisturbed with
  | goOn cal =>
    rw [State.bowl_calibrationConversion_goOn step]
    exact ⟨rfl, rfl, rfl⟩
  | finish cal outcome =>
    rw [State.calibrationConversion_finish step, State.bowl_endCalibration, State.bowl_setBowl]
    exact ⟨rfl, rfl, rfl⟩

end Conversion

/-- Settles O51. -/
theorem sweepAndCaptureFollowTheirRules : Obligations.SweepAndCaptureFollowTheirRules := by
  constructor
  · intro b sample t x s released calibrating context phase third _ v r
    have next : exec (.loadCellConversion b sample) s = .next (s.calibrationConversion b r) :=
      (exec_event (fun s => s.loadCell b sample.toInt) rfl released).trans (congrArg _ (if_pos calibrating))
    obtain ⟨mass, filter, tarePoint⟩ := s.calibrationConversion_keepsWeighing b r
    refine ⟨_, next, mass, filter, tarePoint, fun negative more => ?_, fun low high moved => ?_, fun fails => ?_⟩
    · rw [State.bowl_calibrationConversion_goOn (BowlCal.step_sweep_next context phase third negative more _)]
      exact ⟨calibrating, rfl, rfl⟩
    · rw [State.bowl_calibrationConversion_goOn (BowlCal.step_sweep_lock context phase third low high moved _)]
      exact ⟨calibrating, rfl⟩
    · rw [State.calibrationConversion_finish (BowlCal.step_sweep_fails context phase third fails _),
        State.bowl_endCalibration, State.bowl_setBowl]
      simp only [Bowl.calibrationEnded, BowlCal.finish_restores context (by decide : CalOutcome.trimRange ≠ .success)]
      exact ⟨trivial, trivial, trivial, rfl, State.endCalibration_notice _ b _⟩
  · intro c x attempt sum r context phase last inside average
    have result : c.step r false = captureResult c x (sum + r) := BowlCal.step_capture_last context phase last inside
    refine ⟨fun kind => result.trans (captureResult_zero kind), ?_⟩
    intro reference kind n
    refine ⟨fun small => ?_, fun enough weight => ?_⟩
    · exact result.trans (captureResult_span_small kind small)
    · obtain ⟨nonneg, fits⟩ := spanGain_bounds weight (by omega : 10000 ≤ n.toNat)
      exact ⟨_, result.trans (captureResult_span kind enough), Int.toNat_of_nonneg nonneg, Int.toNat_le.mpr fits⟩

end Sys2Proof.Machine

namespace Sys2Proof.Machine

open Sys2Proof

/-! ## The end of autoload (R139, R144) -/

theorem clampNat_eq (lo hi v : Nat) (h : lo ≤ hi) : clampNat lo hi v = max lo (min hi v) := by
  unfold clampNat
  split
  · omega
  · split <;> omega

/-- A good image holds a circuit rating of at least 500 W and a known arbitration mode (R143). -/
theorem bounds_of_imageGood {im : Vector Byte 128} (good : imageGood im = true) :
    50 ≤ imagePair im 32 ∧ imageByte im 36 ≤ 1 := by
  simp only [imageGood, Bool.and_eq_true, decide_eq_true_eq] at good
  exact ⟨good.1.1.2, good.2⟩

theorem arbModeOf_getD {n : Nat} (known : n ≤ 1) (mode : ArbMode) : some ((arbModeOf n).getD mode) = arbModeOf n := by
  interval_cases n <;> rfl

/-- What the arbiter takes from a good image (R139). -/
theorem Arbiter.takeImage_eq {im : Vector Byte 128} (good : imageGood im = true) (x : Arbiter) :
    x.takeImage im =
      { x with
        rating := imagePair im 32
        pendingCap := some (max 50 (min (imagePair im 32) (imagePair im 34)))
        pendingMode := if x.modeByRequest then x.pendingMode else arbModeOf (imageByte im 36) } := by
  obtain ⟨rating, mode⟩ := bounds_of_imageGood good
  simp only [Arbiter.takeImage, clampNat_eq _ _ _ rating, arbModeOf_getD mode]

section Autoload

variable {s : State} (inFlight : s.image.autoload = .inFlight)
include inFlight

theorem State.endAutoload_noAck : s.endAutoload .noAck = { s with image := { s.image with autoload := .absent } } := by
  simp only [State.endAutoload, inFlight]

theorem State.endAutoload_bad {im : Vector Byte 128} (bad : imageGood im = false) :
    s.endAutoload (.image im) = { s with image := { s.image with autoload := .bad } } := by
  simp [State.endAutoload, inFlight, bad]

theorem State.endAutoload_good {im : Vector Byte 128} (good : imageGood im = true) :
    s.endAutoload (.image im) = { s.loadImage im with image := { s.image with autoload := .loaded } } := by
  simp only [State.endAutoload, inFlight, good, if_true]

end Autoload

/-- Settles O48. -/
theorem autoloadOutcomes : Obligations.AutoloadOutcomes := by
  intro s released inFlight
  have next (r : AutoloadRead) : exec (.autoloadComplete r) s = .next (s.endAutoload r) :=
    exec_event (fun s => s.endAutoload r) rfl released
  refine ⟨?_, fun im bad => ?_, fun im good => ?_⟩
  · rw [next, State.endAutoload_noAck inFlight]
  · rw [next, State.endAutoload_bad inFlight bad]
  · have arbiter := s.arbiter.takeImage_eq good
    refine ⟨_, (next _).trans (congrArg _ (State.endAutoload_good inFlight good)), rfl, rfl, rfl, fun b => ?_, ?_⟩
    · cases b <;> exact ⟨rfl, rfl, rfl, rfl⟩
    · simp only [State.loadImage, arbiter]
      exact ⟨trivial, trivial, fun requested => if_pos requested, fun free => if_neg (by simp [free]), trivial, trivial,
        trivial, trivial, trivial⟩

end Sys2Proof.Machine

namespace Sys2Proof.Machine

open Sys2Proof

/-! ## The over-temperature latch at the heating unit (R85) -/

/-- A heating unit as a set latch holds it: both relays open with no settle, no stage and no posted demand (R85). -/
structure HeatUnit.Cut (h : HeatUnit) : Prop where
  relayMain : h.relayMain = .opened
  relayKeep : h.relayKeep = .opened
  settle : h.settle = none
  active : h.active = none
  posted : h.posted = 0

theorem Bowl.latchHeld_iff (x : Bowl) : x.LatchHeld ↔ (x.heat.latch = true → x.run.state = .fault ∧ x.heat.Cut) :=
  forall_congr' fun _ => and_congr_right fun _ =>
    ⟨fun ⟨main, keep, settle, active, posted⟩ => ⟨main, keep, settle, active, posted⟩,
      fun h => ⟨h.relayMain, h.relayKeep, h.settle, h.active, h.posted⟩⟩

/-- `g` comes of `h` by an operation that leaves the latch and closes no relay of a cut unit. -/
structure HeatUnit.KeepsCut (h g : HeatUnit) : Prop where
  latch : g.latch = h.latch
  cut : h.Cut → g.Cut

namespace HeatUnit

variable (h : HeatUnit)

theorem KeepsCut.refl : h.KeepsCut h := ⟨rfl, id⟩

theorem KeepsCut.trans {h g k : HeatUnit} (first : h.KeepsCut g) (second : g.KeepsCut k) : h.KeepsCut k :=
  ⟨second.latch.trans first.latch, second.cut ∘ first.cut⟩

/-- An operation that leaves the latch, the relays, the settle, the stage and the posted demand. -/
theorem KeepsCut.of_same {h g : HeatUnit} (latch : g.latch = h.latch := by rfl) (main : g.relayMain = h.relayMain := by rfl)
    (keep : g.relayKeep = h.relayKeep := by rfl) (settle : g.settle = h.settle := by rfl)
    (active : g.active = h.active := by rfl) (posted : g.posted = h.posted := by rfl) : h.KeepsCut g :=
  ⟨latch, fun c => ⟨main.trans c.relayMain, keep.trans c.relayKeep, settle.trans c.settle, active.trans c.active,
    posted.trans c.posted⟩⟩

theorem cut_forceOff : h.forceOff.Cut := ⟨rfl, rfl, rfl, rfl, rfl⟩

theorem cut_setLatch : h.setLatch.Cut := ⟨rfl, rfl, rfl, rfl, rfl⟩

@[simp] theorem callStage_latch (mode : StageMode) : (h.callStage mode).latch = h.latch :=
  (congrArg HeatUnit.latch (h.callStage_rest mode) :)

@[simp] theorem handHold_latch (mode : StageMode) (band : HoldBand) : (h.handHold mode band).latch = h.latch :=
  callStage_latch _ mode

theorem keepsCut_rampAdvance : h.KeepsCut h.rampAdvance := by
  unfold rampAdvance
  split
  · exact .of_same
  · exact .refl h

/-- A posting leaves all but the posted demand, and posts nothing without a stage (R93). -/
theorem keepsCut_post : h.KeepsCut h.post := by
  unfold post
  split
  · rename_i a active
    have uncut (g : HeatUnit) : h.Cut → g.Cut := fun c => by simp [c.active] at active
    split
    · exact ⟨rfl, uncut _⟩
    · exact ⟨rfl, uncut _⟩
  · exact ⟨rfl, fun c => ⟨c.relayMain, c.relayKeep, c.settle, c.active, rfl⟩⟩

theorem keepsCut_regulate (v : CalValues) : h.KeepsCut (h.regulate v) := by
  unfold regulate
  split
  · exact KeepsCut.trans .of_same (keepsCut_post _)
  · exact .refl h

/-! ### The AUTO counts (R95) -/

/-- The count of low windows after one more window on MAIN, low where its demand is and the ramp is complete (R95). -/
def lowAfter (read : Nat) : Nat := if h.rampComplete ∧ read ≤ 4 then h.lowCount + 1 else 0

/-- The count of full windows after one more window on KEEP (R95). -/
def fullAfter (read : Nat) : Nat := if read = 20 then h.highCount + 1 else 0

/-- Whether windows are counted: in AUTO under a STEP order with no settle in flight (R95). -/
def Counting (mode : StageMode) : Prop := mode = .auto ∧ h.stepping ∧ h.settle = none

variable {h} {mode : StageMode}

theorem autoCount_main (counting : h.Counting mode) (active : h.active = some .main) (read : Nat) :
    h.autoCount mode read =
      if 10 ≤ h.lowAfter read then h.requestSwitch .keep else { h with lowCount := h.lowAfter read } := by
  obtain ⟨auto, stepping, settled⟩ := counting
  simp only [autoCount, auto, stepping, settled, active, Option.isNone_none, and_self, if_true, lowAfter]

theorem autoCount_keep (counting : h.Counting mode) (active : h.active = some .keep) (read : Nat) :
    h.autoCount mode read =
      if 5 ≤ h.fullAfter read then h.requestSwitch .main else { h with highCount := h.fullAfter read } := by
  obtain ⟨auto, stepping, settled⟩ := counting
  simp only [autoCount, auto, stepping, settled, active, Option.isNone_none, and_self, if_true, fullAfter]

/-- Without a stage, or where windows are not counted, a window start changes nothing here (R95). -/
theorem autoCount_uncounted (idle : ¬h.Counting mode ∨ h.active = none) (read : Nat) : h.autoCount mode read = h := by
  unfold autoCount
  split
  · rename_i counting
    simp only [idle.resolve_left (not_not_intro ⟨counting.1, counting.2.1, Option.isNone_iff_eq_none.mp counting.2.2⟩)]
  · rfl

/-- A request for another stage than the active one, no settle in flight, begins a switch with both AUTO counts 0 (R95, R98). -/
theorem requestSwitch_other {e a : Element} (settled : h.settle = none) (active : h.active = some a) (other : e ≠ a) :
    h.requestSwitch e = { h with lowCount := 0, highCount := 0 }.beginSettle e := by
  simp only [requestSwitch, settled, active, if_neg other]

/-- The beginning of a switch changes the relay and the settle only (R98). -/
theorem beginSettle_rest (h : HeatUnit) (e : Element) :
    { h.beginSettle e with relayMain := h.relayMain, relayKeep := h.relayKeep, settle := h.settle } = h := by
  cases e <;> rfl

/-- The counting of a window changes the counts, and by a switch the relays and the settle (R95). -/
theorem autoCount_rest (h : HeatUnit) (mode : StageMode) (read : Nat) :
    { h.autoCount mode read with
      lowCount := h.lowCount, highCount := h.highCount, settle := h.settle, relayMain := h.relayMain
      relayKeep := h.relayKeep } = h := by
  by_cases counting : h.Counting mode
  · cases active : h.active with
    | none => rw [autoCount_uncounted (.inr active)]
    | some a =>
      cases a with
      | main =>
        rw [autoCount_main counting active]
        split
        · rw [requestSwitch_other counting.2.2 active (by decide)]
          rfl
        · rfl
      | keep =>
        rw [autoCount_keep counting active]
        split
        · rw [requestSwitch_other counting.2.2 active (by decide)]
          rfl
        · rfl
  · rw [autoCount_uncounted (.inl counting)]

variable (h)

/-! ### Operations of a cut unit -/

theorem beginSettle_latch (e : Element) : (h.beginSettle e).latch = h.latch := by cases e <;> rfl

theorem takePendingSwitch_latch : h.takePendingSwitch.latch = h.latch := by
  unfold takePendingSwitch
  split
  · split
    · rfl
    · exact beginSettle_latch _ _
  · rfl

theorem setRelay_latch (e : Element) (r : Relay) : (h.setRelay e r).latch = h.latch := by cases e <;> rfl

/-- A cut unit has no settle to expire (R97). -/
theorem keepsCut_settleExpiry (v : CalValues) : h.KeepsCut (h.settleExpiry v) := by
  unfold settleExpiry
  split
  · exact .refl h
  · rename_i st settling
    refine ⟨(takePendingSwitch_latch _).trans ((keepsCut_post _).latch.trans ?_), fun c => by simp [c.settle] at settling⟩
    split
    · exact setRelay_latch _ _ _
    · exact (setRelay_latch _ _ _).trans (setRelay_latch _ _ _)

/-- A cut unit has no stage whose windows are counted (R95). -/
theorem keepsCut_autoCount (mode : StageMode) (read : Nat) : h.KeepsCut (h.autoCount mode read) :=
  ⟨(congrArg HeatUnit.latch (h.autoCount_rest mode read) :), fun c => by rwa [autoCount_uncounted (.inr c.active)]⟩

theorem keepsCut_takeGrant (mode : StageMode) (read grant : Nat) : h.KeepsCut (h.takeGrant mode read grant) :=
  KeepsCut.trans .of_same (keepsCut_autoCount _ mode read)

theorem keepsCut_mainsLoss : h.KeepsCut h.mainsLoss := ⟨rfl, fun _ => ⟨rfl, rfl, rfl, rfl, rfl⟩⟩

theorem keepsCut_tick : h.KeepsCut h.tick :=
  ⟨rfl, fun c => ⟨c.relayMain, c.relayKeep, by simp [tick, c.settle], c.active, c.posted⟩⟩

end HeatUnit

/-! ## Operations that leave the latch -/

theorem HeatUnit.Rests.latch {h g : HeatUnit} (rests : h.Rests g) : g.latch = h.latch := by
  rw [HeatUnit.Rests] at rests
  rw [rests]

/-- The handing of a step's parts leaves the latch (R32). -/
theorem Bowl.TakesParts.latch {x y : Bowl} {isNew : Bool} {st : Step} {offset : Option Int} {override : Option Nat}
    (h : x.TakesParts y isNew st offset override) : y.heat.latch = x.heat.latch := by
  cases part : st.heat with
  | none => exact (h.noHeat part).latch
  | some p => exact (congrArg HeatUnit.latch (h.heat p part).rest :)

/-- The entry of a step leaves the latch (R31). -/
theorem Bowl.TakesEntry.latch {x y : Bowl} {paused : Bool} {st : Step} (h : x.TakesEntry y paused st) :
    y.heat.latch = x.heat.latch := by
  cases paused with
  | false => exact (h.parts rfl).latch
  | true => exact (h.atRest rfl).1.latch

namespace State

variable (s : State) (b : BowlId)

@[simp] theorem latch_handParts : ((s.handParts b).bowl b).heat.latch = (s.bowl b).heat.latch := (s.handParts_takes b).latch

@[simp] theorem latch_enterStep (f : InForce) (i : Option Nat) :
    ((s.enterStep b f i).bowl b).heat.latch = (s.bowl b).heat.latch := (s.enterStep_takesEntry b f i).latch

@[simp] theorem latch_transferTo (i : Nat) : ((s.transferTo b i).bowl b).heat.latch = (s.bowl b).heat.latch := by
  cases delivered : s.fetch b i with
  | some f => exact (transferTo_transfers delivered).takes.latch
  | none => simp only [transferTo, delivered]

@[simp] theorem latch_loopBack (i : Nat) : ((s.loopBack b i).bowl b).heat.latch = (s.bowl b).heat.latch := by
  unfold loopBack
  split
  · exact latch_enterStep s b _ _
  · rfl

@[simp] theorem latch_endRun : ((s.endRun b).bowl b).heat.latch = (s.bowl b).heat.latch := by
  rw [bowl_endRun]
  rfl

@[simp] theorem latch_finishRun : ((s.finishRun b).bowl b).heat.latch = (s.bowl b).heat.latch := latch_endRun s b

@[simp] theorem latch_handHold (band : HoldBand) (isNew : Bool) :
    ((s.handHold b band isNew).bowl b).heat.latch = (s.bowl b).heat.latch := by
  rw [bowl_handHold]
  exact HeatUnit.handHold_latch _ _ _

@[simp] theorem latch_enterHold (choice : BandChoice) (limit : Nat) :
    ((s.enterHold b choice limit).bowl b).heat.latch = (s.bowl b).heat.latch := by
  rw [bowl_enterHold]
  exact HeatUnit.handHold_latch _ _ _

@[simp] theorem latch_applyFlow (st : Step) : ((s.applyFlow b st).bowl b).heat.latch = (s.bowl b).heat.latch := by
  simp only [applyFlow]
  split
  · exact latch_finishRun s b
  · split
    · exact latch_transferTo s b _
    · exact latch_transferTo s b _
    · exact latch_finishRun s b
    · exact latch_enterHold s b _ _

@[simp] theorem latch_endStep : ((s.endStep b).bowl b).heat.latch = (s.bowl b).heat.latch := by
  have closed : ((s.stepClosed b).bowl b).heat.latch = (s.bowl b).heat.latch := by
    rw [bowl_stepClosed]
    rfl
  simp only [endStep, stepClosed_eq]
  split
  · exact (latch_loopBack _ b _).trans closed
  · exact (latch_applyFlow _ b _).trans closed

@[simp] theorem latch_evaluate : ((s.evaluate b).bowl b).heat.latch = (s.bowl b).heat.latch := by
  simp only [evaluate]
  split
  · exact latch_endStep s b
  · rfl

theorem latch_joinPause (x : Bowl) (join : PauseSet → PauseSet) : (x.joinPause join).heat.latch = x.heat.latch := by
  unfold Bowl.joinPause
  split <;> rfl

@[simp] theorem latch_retestLid : ((s.retestLid b).bowl b).heat.latch = (s.bowl b).heat.latch := by
  simp only [retestLid]
  split
  · rw [bowl_addPause]
    exact latch_joinPause _ _
  · rfl

theorem latch_beginRun (slot i : Nat) : ((s.beginRun b slot i).bowl b).heat.latch = (s.bowl b).heat.latch := by
  simp [beginRun]

theorem latch_beginManual (r : Record) : ((s.beginManual b r).bowl b).heat.latch = (s.bowl b).heat.latch := by
  simp [beginManual]

theorem latch_resumeBowl : ((s.resumeBowl b).bowl b).heat.latch = (s.bowl b).heat.latch := by
  simp only [resumeBowl]
  split
  · split <;> simp
  · split <;> simp

theorem latch_takeAdjust (offset : Option Int) (speed extension : Option Nat) :
    ((s.takeAdjust b offset speed extension).bowl b).heat.latch = (s.bowl b).heat.latch := by
  have handIf (t : State) (c : Prop) [Decidable c] :
      ((if c then t else t.handParts b).bowl b).heat.latch = (t.bowl b).heat.latch := by
    split <;> simp
  have evaluateIf (t : State) (c : Prop) [Decidable c] :
      ((if c then t else t.evaluate b).bowl b).heat.latch = (t.bowl b).heat.latch := by
    split <;> simp
  simp only [takeAdjust]
  split
  · rw [evaluateIf, latch_retestLid, handIf]
    simp
  · simp

theorem latch_endCalibration (outcome : CalOutcome) :
    ((s.endCalibration b outcome).bowl b).heat.latch = (s.bowl b).heat.latch := by
  simp [endCalibration, closeCalibration]

theorem latch_calibrationConversion (r : Int) :
    ((s.calibrationConversion b r).bowl b).heat.latch = (s.bowl b).heat.latch := by
  simp only [calibrationConversion]
  split
  · simp [reportStable]
  · simp [latch_endCalibration, reportStable]

theorem latch_enterCalibrating (c : BowlCal) : ((s.enterCalibrating b c).bowl b).heat.latch = (s.bowl b).heat.latch := by
  rw [bowl_enterCalibrating]
  rfl

end State

end Sys2Proof.Machine

namespace Sys2Proof.Machine

open Sys2Proof

/-! ## A bowl that holds its latch, through its operations (R85) -/

theorem Bowl.latchHeld_of_clear {x : Bowl} (clear : x.heat.latch = false) : x.LatchHeld := fun set => by simp [clear] at set

namespace Bowl.LatchHeld

variable {x y : Bowl}

/-- Outside FAULT the latch is clear. -/
theorem clear (h : x.LatchHeld) (active : x.run.state ≠ .fault) : x.heat.latch = false := by
  rw [← Bool.not_eq_true]
  exact fun set => active (h set).1

/-- An operation that keeps a cut unit cut and a bowl in FAULT there. -/
theorem of_keeps (h : x.LatchHeld) (heat : x.heat.KeepsCut y.heat) (state : y.run.state = x.run.state) : y.LatchHeld := by
  rw [latchHeld_iff] at h ⊢
  intro set
  obtain ⟨fault, cut⟩ := h (heat.latch ▸ set)
  exact ⟨state.trans fault, heat.cut cut⟩

/-- Whatever leaves the latch, outside FAULT. -/
theorem of_active (h : x.LatchHeld) (active : x.run.state ≠ .fault) (latch : y.heat.latch = x.heat.latch) : y.LatchHeld :=
  latchHeld_of_clear (latch.trans (h.clear active))

theorem joinPause (h : x.LatchHeld) (join : PauseSet → PauseSet) : (x.joinPause join).LatchHeld := by
  cases state : x.run.state with
  | running | holding => exact h.of_active (by simp [state]) (State.latch_joinPause x join)
  | paused =>
    refine h.of_keeps ?_ ?_
    · simpa only [Bowl.joinPause, state] using .refl _
    · simp only [Bowl.joinPause, state]
  | idle | calibrating | fault =>
    simp only [Bowl.joinPause, state]
    exact h

end Bowl.LatchHeld

/-- A bowl in FAULT with a cut unit holds its latch, set or not. -/
theorem Bowl.latchHeld_of_cut {x : Bowl} (fault : x.run.state = .fault) (cut : x.heat.Cut) : x.LatchHeld :=
  x.latchHeld_iff.mpr fun _ => ⟨fault, cut⟩

/-- A fault report leaves a bowl that holds its latch, if it came to one in FAULT already (R54, R55). -/
theorem State.latchHeld_reportFault {s : State} {b : BowlId} (h : (s.bowl b).run.state = .fault → (s.bowl b).LatchHeld)
    (cause : FaultCause) (value : Int) : ((s.reportFault b cause value).bowl b).LatchHeld := by
  by_cases fault : (s.bowl b).run.state = .fault
  · rw [State.bowl_reportFault_further fault]
    exact (h fault).of_keeps (.refl _) rfl
  · rw [State.bowl_reportFault fault]
    exact Bowl.latchHeld_of_cut rfl (HeatUnit.cut_forceOff _)

namespace Bowl.LatchHeld

variable {s : State} {b : BowlId} (h : (s.bowl b).LatchHeld)
include h

theorem setHeat {g : HeatUnit} (heat : (s.bowl b).heat.KeepsCut g) : ((s.setHeat b g).bowl b).LatchHeld := by
  rw [State.bowl_setHeat]
  exact h.of_keeps heat rfl

theorem setStir (u : StirUnit) : ((s.setStir b u).bowl b).LatchHeld := by
  rw [State.bowl_setStir]
  exact h.of_keeps (.refl _) rfl

theorem setWeigh (c : Channel) : ((s.setWeigh b c).bowl b).LatchHeld := by
  rw [State.bowl_setWeigh]
  exact h.of_keeps (.refl _) rfl

theorem setRun {r : RunContext} (state : r.state = (s.bowl b).run.state := by rfl) : ((s.setRun b r).bowl b).LatchHeld := by
  rw [State.bowl_setRun]
  exact h.of_keeps (.refl _) state

theorem noteClamp (c : Bool) : ((s.noteClamp b c).bowl b).LatchHeld := by
  rw [State.bowl_noteClamp]
  exact h.of_keeps (.refl _) rfl

theorem putStir (r : StirUnit × Bool) : ((s.putStir b r).bowl b).LatchHeld := (h.setStir _).noteClamp _

theorem addPause (join : PauseSet → PauseSet) : ((s.addPause b join).bowl b).LatchHeld := by
  rw [State.bowl_addPause]
  exact h.joinPause join

theorem lidOpened : ((s.lidOpened b).bowl b).LatchHeld := by
  unfold State.lidOpened
  split
  · exact h.addPause _
  · exact h

theorem retestLid : ((s.retestLid b).bowl b).LatchHeld := by
  simp only [State.retestLid]
  split
  · exact h.addPause _
  · exact h

/-- A trigger evaluation ends a step of a RUNNING bowl only, whose latch is clear (R36). -/
theorem evaluate : ((s.evaluate b).bowl b).LatchHeld := by
  simp only [State.evaluate]
  split
  · rename_i met
    exact h.of_active (by simp [met.1]) (State.latch_endStep s b)
  · exact h

theorem changeFlags (w : FlagWord) : ((s.changeFlags b w).bowl b).LatchHeld := by
  have flagged : ((s.setFlags b w).bowl b).LatchHeld := h.setRun
  simp only [State.changeFlags]
  split
  · exact flagged
  · exact flagged.evaluate

theorem reportFault (cause : FaultCause) (value : Int) : ((s.reportFault b cause value).bowl b).LatchHeld :=
  State.latchHeld_reportFault (fun _ => h) cause value

/-! ### Conversions -/

theorem loadCell (r : Int) : ((s.loadCell b r).bowl b).LatchHeld := by
  unfold State.loadCell
  split
  · rename_i calibrating
    exact h.of_active (by simp [calibrating]) (State.latch_calibrationConversion s b r)
  · exact ((h.setWeigh _).noteClamp _).changeFlags _

/-- A conversion above 200.0 °C sets the latch of a bowl that it puts, or that is, in FAULT (R54, R85). -/
theorem overTemperature (t : Int) : ((s.overTemperature b t).bowl b).LatchHeld := by
  simp only [State.overTemperature]
  split
  · refine State.latchHeld_reportFault (fun fault => ?_) _ _
    rw [State.bowl_setHeat] at fault ⊢
    exact Bowl.latchHeld_of_cut fault (HeatUnit.cut_setLatch _)
  · exact h

theorem decideT : ((s.decideT b).bowl b).LatchHeld := by
  have advanced := (s.bowl b).heat.keepsCut_rampAdvance
  simp only [State.decideT]
  split
  · split
    · exact (h.setHeat (advanced.trans .of_same)).changeFlags _
    · exact h.setHeat advanced
  · exact h

theorem regulate : ((s.regulate b).bowl b).LatchHeld := by
  simp only [State.regulate]
  split
  · exact h.setHeat (HeatUnit.keepsCut_regulate _ _)
  · exact h

theorem temperature (code : Nat) : ((s.temperature b code).bowl b).LatchHeld := by
  unfold State.temperature
  split
  · exact (((((h.setHeat .of_same).overTemperature _).retestLid).putStir _).decideT).regulate
  · simp only [State.sensorOutside]
    split
    · exact h.setHeat .of_same
    · exact (h.setHeat .of_same).reportFault _ _

/-! ### Timers, switches and the mains -/

theorem stallExpiry : ((s.stallExpiry b).bowl b).LatchHeld := by
  simp only [State.stallExpiry]
  split
  · exact (h.setStir _).reportFault _ _
  · exact h

theorem lockExpiry : ((s.lockExpiry b).bowl b).LatchHeld := by
  simp only [State.lockExpiry]
  split
  · exact ((h.setStir _).reportFault _ _).putStir _
  · exact h

theorem lidChange (level : SwitchLevel) : ((s.lidChange b level).bowl b).LatchHeld := by
  have faultIf {t : State} (c : Prop) [Decidable c] (ht : (t.bowl b).LatchHeld) :
      ((if c then t.reportFault b .lock 2 else t).bowl b).LatchHeld := by
    split
    · exact ht.reportFault _ _
    · exact ht
  have openIf {t : State} (c : Prop) [Decidable c] (ht : (t.bowl b).LatchHeld) :
      ((if c then t.lidOpened b else t).bowl b).LatchHeld := by
    split
    · exact ht.lidOpened
    · exact ht
  simp only [State.lidChange]
  split
  · exact h.setStir _
  · exact openIf _ (faultIf _ (h.putStir _))

theorem confirmChange (level : SwitchLevel) : ((s.confirmChange b level).bowl b).LatchHeld := by
  simp only [State.confirmChange]
  split
  · exact h.setStir _
  · exact h.putStir _

theorem timeExpiry : ((s.timeExpiry b).bowl b).LatchHeld := by
  simp only [State.timeExpiry]
  split
  · refine evaluate (h.setRun ?_)
    split <;> rfl
  · exact h

theorem holdExpiry : ((s.holdExpiry b).bowl b).LatchHeld := by
  unfold State.holdExpiry
  split
  · rename_i holding
    exact h.of_active (by simp [holding]) (State.latch_finishRun s b)
  · exact h

theorem endCompletion : ((s.endCompletion b).bowl b).LatchHeld := by
  simp only [State.endCompletion]
  split
  · rename_i due
    exact h.of_active (by simp [due.2]) (State.latch_endStep s b)
  · exact h

theorem handResults (a : Account) : ((s.handResults a b).bowl b).LatchHeld := by
  rw [State.bowl_handResults]
  exact h.of_keeps (HeatUnit.keepsCut_takeGrant _ _ _ _) rfl

end Bowl.LatchHeld

/-! ## Both bowls hold their latches through every command -/

theorem State.latchesHeld_iff (s : State) : s.LatchesHeld ↔ ∀ b, (s.bowl b).LatchHeld :=
  ⟨fun h b => by cases b; exacts [h.1, h.2], fun h => ⟨h .one, h .two⟩⟩

/-- The operations of a bowl keep the other bowl as it was, and so both latches if they keep their own. -/
theorem BowlOps.latches {b : BowlId} {s t : State} (ops : BowlOps b s t) (hs : s.LatchesHeld)
    (own : (s.bowl b).LatchHeld → (t.bowl b).LatchHeld) : t.LatchesHeld := by
  rw [State.latchesHeld_iff] at hs ⊢
  intro c
  rcases eq_or_otherBowl b c with rfl | rfl
  · exact own (hs c)
  · rw [ops.within.other]
    exact hs _

namespace State.LatchesHeld

/-- Both bowls hold their latches after a change of the rest of the part. -/
theorem of_bowls {s t : State} (hs : s.LatchesHeld) (bowls : t.bowls = s.bowls) : t.LatchesHeld := by
  simpa only [State.LatchesHeld, bowls] using hs

section Answers

variable {s : State} (hs : s.LatchesHeld)
include hs

theorem withBowl {pb : Byte} {f : BowlId → Reply} (h : ∀ b, (f b).state.LatchesHeld) :
    (withBowl pb s f).state.LatchesHeld := by
  unfold Machine.withBowl
  split
  · exact h _
  · exact hs

theorem refuseIf {c : Prop} [Decidable c] {st : Status} {r : Reply} (h : ¬c → r.state.LatchesHeld) :
    (if c then refuse s st else r).state.LatchesHeld := by
  split
  · exact hs
  · rename_i passed
    exact h passed

/-- An operation of a bowl outside FAULT that leaves the latch. -/
theorem operate {t : State} {b : BowlId} (ops : BowlOps b s t) (active : (s.bowl b).run.state ≠ .fault)
    (latch : (t.bowl b).heat.latch = (s.bowl b).heat.latch) : t.LatchesHeld :=
  ops.latches hs fun h => h.of_active active latch

theorem setWeigh (b : BowlId) (c : Channel) : (s.setWeigh b c).LatchesHeld :=
  (BowlOps.setWeigh s b c).latches hs fun h => h.setWeigh c

theorem putStir (b : BowlId) (r : StirUnit × Bool) : (s.putStir b r).LatchesHeld :=
  (BowlOps.putStir s b r).latches hs fun h => h.putStir r

theorem answerStart (params : List Byte) : (answerStart params s).state.LatchesHeld := by
  unfold Machine.answerStart
  split
  · refine hs.withBowl fun b => hs.refuseIf fun _ => ?_
    split
    · exact hs
    · rename_i admissible
      split
      · exact hs
      · rename_i admitted
        have idle := State.idle_of_startRefusal admissible
        exact hs.operate (.beginRun idle admitted) (by simp [idle]) (s.latch_beginRun b _ _)
  · exact hs

theorem answerManual (params : List Byte) : (answerManual params s).state.LatchesHeld := by
  unfold Machine.answerManual
  split
  · refine hs.withBowl fun b => ?_
    split
    · exact hs
    · split
      · exact hs
      · rename_i admissible
        have idle := State.idle_of_startRefusal admissible
        exact hs.refuseIf fun _ => hs.operate (.beginManual _ idle) (by simp [idle]) (s.latch_beginManual b _)
  · exact hs

theorem answerPause (params : List Byte) : (answerPause params s).state.LatchesHeld := by
  unfold Machine.answerPause
  split
  · refine hs.withBowl fun b => ?_
    unfold State.pauseBowl
    cases (s.bowl b).run.state with
    | running | paused | holding => exact (BowlOps.addPause s b _).latches hs fun h => h.addPause _
    | idle | calibrating | fault => exact hs
  · exact hs

theorem answerResume (params : List Byte) : (answerResume params s).state.LatchesHeld := by
  unfold Machine.answerResume
  split
  · refine hs.withBowl fun b => hs.refuseIf fun paused => hs.refuseIf fun _ => hs.refuseIf fun _ => ?_
    exact hs.operate (.resumeBowl s b) (by simp [not_not.mp paused]) (s.latch_resumeBowl b)
  · exact hs

/-- The end of a fault clears the latch (R56, R86). -/
theorem clearFault (b : BowlId) : (s.clearFault b).LatchesHeld :=
  (BowlOps.clearFault s b).latches hs fun _ => Bowl.latchHeld_of_clear (by simp [State.clearFault])

theorem answerClearFault (params : List Byte) : (answerClearFault params s).state.LatchesHeld := by
  unfold Machine.answerClearFault
  split
  · exact hs.withBowl fun b => hs.refuseIf fun _ => hs.refuseIf fun _ => hs.clearFault b
  · exact hs

theorem abortCalibration (b : BowlId) : (s.abortCalibration b).state.LatchesHeld := by
  unfold State.abortCalibration
  split
  · rename_i calibrating
    exact hs.operate (.endCalibration .aborted calibrating) (by simp [calibrating]) (s.latch_endCalibration b _)
  · exact hs

theorem answerStop (params : List Byte) : (answerStop params s).state.LatchesHeld := by
  unfold Machine.answerStop
  split
  · refine hs.withBowl fun b => ?_
    have off : ((s.forceOff b).bowl b).heat.latch = (s.bowl b).heat.latch := by rw [State.bowl_forceOff]; rfl
    unfold State.stopBowl
    cases state : (s.bowl b).run.state with
    | idle => exact hs.operate (.forceOff s b) (by simp [state]) off
    | running | paused | holding =>
      exact hs.operate ((BowlOps.forceOff s b).trans (.endRun _ b)) (by simp [state]) ((State.latch_endRun _ b).trans off)
    | calibrating => exact hs.abortCalibration b
    | fault => exact hs.refuseIf fun _ => hs.clearFault b
  · exact hs

theorem answerSkipStep (params : List Byte) : (answerSkipStep params s).state.LatchesHeld := by
  unfold Machine.answerSkipStep
  split
  · refine hs.withBowl fun b => ?_
    cases state : (s.bowl b).run.state with
    | running => exact hs.operate (.endStep s b) (by simp [state]) (s.latch_endStep b)
    | holding => exact hs.operate (.finishRun s b) (by simp [state]) (s.latch_finishRun b)
    | idle | paused | calibrating | fault => exact hs
  · exact hs

theorem answerAnswer (params : List Byte) : (answerAnswer params s).state.LatchesHeld := by
  unfold Machine.answerAnswer
  split
  · refine hs.withBowl fun b => hs.refuseIf fun _ => hs.refuseIf fun _ => ?_
    split
    · exact hs
    · exact hs.refuseIf fun _ => (BowlOps.takeAnswer s b _).latches hs fun h => h.setRun.changeFlags _
  · exact hs

theorem answerAdjust (params : List Byte) : (answerAdjust params s).state.LatchesHeld := by
  unfold Machine.answerAdjust
  split
  · refine hs.withBowl fun b => hs.refuseIf fun _ => hs.refuseIf fun adjustable => ?_
    have active : (s.bowl b).run.state ≠ .fault := fun fault => adjustable (by simp [RunContext.adjustable, fault])
    exact hs.operate (.takeAdjust s b _ _ _) active (s.latch_takeAdjust b _ _ _)
  · exact hs

theorem answerTare (params : List Byte) : (answerTare params s).state.LatchesHeld := by
  unfold Machine.answerTare
  split
  · exact hs.withBowl fun b => hs.refuseIf fun _ => hs.refuseIf fun _ => hs.refuseIf fun _ => hs.refuseIf fun _ =>
      hs.setWeigh b _
  · exact hs

theorem answerSetBowlConfig (params : List Byte) : (answerSetBowlConfig params s).state.LatchesHeld := by
  unfold Machine.answerSetBowlConfig
  split
  · refine hs.withBowl fun b => ?_
    split
    · exact hs
    · refine hs.refuseIf fun _ => hs.refuseIf fun _ => hs.refuseIf fun taken => hs.refuseIf fun _ => ?_
      refine hs.operate (.setBowl s b _) (fun fault => taken (by simp [fault])) ?_
      rw [State.bowl_setBowl]
      simp only [Bowl.configure]
      split
      · exact HeatUnit.callStage_latch _ _
      · rfl
  · exact hs

theorem answerCalibrateZero (params : List Byte) : (answerCalibrateZero params s).state.LatchesHeld := by
  unfold Machine.answerCalibrateZero
  split
  · split
    · exact hs
    · rename_i b _
      split
      · exact hs
      · rename_i admissible
        have idle := State.idle_of_calibrationRefusal admissible
        exact hs.operate (.enterCalibrating _ idle) (by simp [idle]) (s.latch_enterCalibrating b _)
  · exact hs

theorem answerCalibrateSpan (params : List Byte) : (answerCalibrateSpan params s).state.LatchesHeld := by
  unfold Machine.answerCalibrateSpan
  split
  · dsimp only
    split
    · exact hs
    · rename_i b _
      refine hs.refuseIf fun _ => ?_
      split
      · exact hs
      · rename_i admissible
        have idle := State.idle_of_calibrationRefusal admissible
        split
        · exact hs.operate (.enterCalibrating _ idle) (by simp [idle]) (s.latch_enterCalibrating b _)
        · exact hs
  · exact hs

theorem answerAbortCalibration (params : List Byte) : (answerAbortCalibration params s).state.LatchesHeld := by
  unfold Machine.answerAbortCalibration
  split
  · split
    · exact hs
    · exact hs.abortCalibration _
  · exact hs

theorem ofStore {r : Reply} (h : r.OfStore s) : r.state.LatchesHeld := hs.of_bowls h.2

/-- Every answer of an owner leaves both bowls holding their latches. -/
theorem owner {code : Nat} {port : PortId} {params : List Byte} {owner : State → Reply}
    (h : ownerOf code port params = some owner) : (owner s).state.LatchesHeld := by
  unfold ownerOf at h
  split at h <;> cases h
  · exact hs.ofStore (answerNop_ofStore _ _)
  · exact hs.ofStore (answerGetStatus_ofStore _ _)
  · exact hs.ofStore (answerReadPage_ofStore _ _)
  · exact hs.ofStore (answerGetNotices_ofStore _ _ _)
  · exact hs.ofStore (answerAckNotice_ofStore _ _ _)
  · exact hs.ofStore (answerSetNotice_ofStore _ _ _)
  · exact hs.ofStore (answerSetThreshold_ofStore _ _ _)
  · exact hs.ofStore (answerResetPort_ofStore _ _ _)
  · exact hs.ofStore (answerOpenRecipe_ofStore _ _ _)
  · exact hs.ofStore (answerWriteStep_ofStore _ _ _)
  · exact hs.ofStore (answerSealRecipe_ofStore _ _ _)
  · exact hs.ofStore (answerDiscardRecipe_ofStore _ _ _)
  · exact hs.ofStore (answerUnloadRecipe_ofStore _ _)
  · exact hs.ofStore (answerListRecipes_ofStore _ _)
  · exact hs.answerStart _
  · exact hs.answerManual _
  · exact hs.answerPause _
  · exact hs.answerResume _
  · exact hs.answerStop _
  · exact hs.answerSkipStep _
  · exact hs.answerAnswer _
  · exact hs.answerAdjust _
  · exact hs.answerTare _
  · exact hs.answerClearFault _
  · exact hs.answerSetBowlConfig _
  · exact hs.answerCalibrateZero _
  · exact hs.answerCalibrateSpan _
  · exact hs.answerAbortCalibration _
  · exact hs.ofStore (answerSaveCalibration_ofStore _ _)
  · exact hs.ofStore (answerSetPowerCap_ofStore _ _)
  · exact hs.ofStore (answerSetArbitration_ofStore _ _)

end Answers

section Events

variable {s : State} (hs : s.LatchesHeld)
include hs

theorem endAutoload (r : AutoloadRead) : (s.endAutoload r).LatchesHeld := by
  unfold State.endAutoload
  split
  · split
    · exact hs
    · split
      · exact hs
      · exact hs
  · exact hs
  · exact hs
  · exact hs

theorem tacho (b : BowlId) (pulses : Nat) : (s.tacho b pulses).LatchesHeld :=
  ((hs.setWeigh .one _).setWeigh .two _).putStir b _

theorem windowStart : s.windowStart.LatchesHeld := by
  have recorded : State.LatchesHeld { s with arbiter := s.arbiter.record s.nextAccount } := hs
  have first := (BowlOps.handResults _ .one s.nextAccount).latches recorded fun h => h.handResults _
  have second := (BowlOps.handResults _ .two s.nextAccount).latches first fun h => h.handResults _
  simp only [State.windowStart]
  split
  · exact second
  · exact second

theorem handPosition (p : Nat) : (s.handPosition p).LatchesHeld :=
  (BowlOps.setHeat _ .two _).latches ((BowlOps.setHeat s .one _).latches hs fun h => h.setHeat .of_same)
    fun h => h.setHeat .of_same

theorem zeroCross (since : Nat) : (s.zeroCross since).LatchesHeld := by
  have timed (x : Arbiter) : State.LatchesHeld { s with arbiter := x } := hs
  unfold State.zeroCross
  split
  · simp only [State.halfCycle]
    split
    · split
      · exact (timed _).windowStart.handPosition 0
      · exact (timed _).handPosition _
    · exact (timed _).windowStart.handPosition 0
  · simp only [State.restorationCross]
    split
    · exact hs
    · exact hs

theorem gapExpiry : s.gapExpiry.LatchesHeld := by
  have lost : s.mainsLoss.LatchesHeld := by
    rw [State.latchesHeld_iff] at hs ⊢
    intro b
    rw [State.bowl_mainsLoss]
    have cut : (s.bowl b).loseMains.LatchHeld := (hs b).of_keeps (HeatUnit.keepsCut_mainsLoss _) rfl
    exact cut.joinPause _
  unfold State.gapExpiry State.gapRunOut
  split
  · exact hs
  · split
    · exact hs
    · split
      · exact lost
      · exact hs

theorem pageDone (acked : Bool) : (s.pageDone acked).LatchesHeld := by
  unfold State.pageDone
  split
  · exact hs
  · split
    · split <;> exact hs
    · exact hs

theorem pageTimeout : s.pageTimeout.LatchesHeld := by
  unfold State.pageTimeout
  split <;> exact hs

theorem tick : s.tick.LatchesHeld := by
  have counted (x : Bowl) (h : x.LatchHeld) : x.tick.LatchHeld := by
    refine h.of_keeps (HeatUnit.keepsCut_tick _) ?_
    simp only [Bowl.tick, RunContext.tick]
    split
    · rfl
    · split <;> rfl
    all_goals rfl
  unfold State.tick
  split
  · exact hs
  · exact ⟨counted _ hs.1, counted _ hs.2⟩

/-- Every event leaves both bowls holding their latches. -/
theorem event {i : Instr} {f : State → State} (effect : eventOf i = some f) : (f s).LatchesHeld := by
  have ops {b : BowlId} (own : ownBowl i = some b) := BowlOps.event effect own s
  cases i with
  | loadCellConversion b sample => cases effect; exact (ops rfl).latches hs fun h => h.loadCell _
  | holdOffExpiry b => cases effect; exact hs.setWeigh _ _
  | temperatureConversion b code => cases effect; exact (ops rfl).latches hs fun h => h.temperature _
  | relaySettleExpiry b =>
    cases effect; exact (ops rfl).latches hs fun h => h.setHeat (HeatUnit.keepsCut_settleExpiry _ _)
  | configSettleExpiry b => cases effect; exact (ops rfl).latches hs fun h => h.setHeat .of_same
  | standstillTimerExpiry b => cases effect; exact hs.putStir _ _
  | stallTimerExpiry b => cases effect; exact (ops rfl).latches hs fun h => h.stallExpiry
  | lockTimerExpiry b => cases effect; exact (ops rfl).latches hs fun h => h.lockExpiry
  | rampStep b => cases effect; exact hs.putStir _ _
  | intervalPhaseChange b => cases effect; exact hs.putStir _ _
  | switchLevelChange b sw level => cases effect; exact (ops rfl).latches hs fun h => h.setStir _
  | lidChange b level => cases effect; exact (ops rfl).latches hs fun h => h.lidChange _
  | confirmSwitchChange b level => cases effect; exact (ops rfl).latches hs fun h => h.confirmChange _
  | switchFirstReading b sw level => cases effect; exact (ops rfl).latches hs fun h => h.setStir _
  | timeExpiry b => cases effect; exact (ops rfl).latches hs fun h => h.timeExpiry
  | holdLimitExpiry b => cases effect; exact (ops rfl).latches hs fun h => h.holdExpiry
  | endPendingCompletion b => cases effect; exact (ops rfl).latches hs fun h => h.endCompletion
  | autoloadComplete r => cases effect; exact hs.endAutoload r
  | tachoMeasurement b pulses => cases effect; exact hs.tacho b pulses
  | zeroCrossArrival since => cases effect; exact hs.zeroCross since
  | gapTimerExpiry => cases effect; exact hs.gapExpiry
  | eepromPageWriteDone acked => cases effect; exact hs.pageDone acked
  | eepromPageTimeout => cases effect; exact hs.pageTimeout
  | portReady p => cases effect; exact hs
  | nop | getStatus | readPage | getNotices | ackNotice | setNotice | setThreshold | resetPort | openRecipe | writeStep
  | sealRecipe | discardRecipe | unloadRecipe | listRecipes | start | manual | pause | resume | stop | skipStep | answer | adjust
  | tare | clearFault | setBowlConfig | calibrateZero | calibrateSpan | abortCalibration | saveCalibration | setPowerCap
  | setArbitration | badFrame | unknownRequest | emptyTransfer | powerOn | resetPinAssert | resetPinRelease => cases effect

end Events

end State.LatchesHeld

/-- Each way in which a step changes the state keeps the latches held. -/
theorem keptByParts_latchesHeld : KeptByParts State.LatchesHeld where
  port _ _ _ hs := hs
  restart _ _ := fun _ => ⟨Bowl.latchHeld_initial, Bowl.latchHeld_initial⟩
  owner _ h hs := hs.owner h
  event _ effect hs := hs.event effect
  queue _ _ hs := hs
  tick _ hs := hs.tick

/-- Settles O58: only a conversion sets the latch, and it faults the bowl; what then moves the bowl out of FAULT clears it, and
no operation closes a relay of a cut unit. -/
theorem everyStepKeepsLatchesHeld : Obligations.EveryStepKeepsLatchesHeld :=
  fun _ _ hs h => keptByParts_latchesHeld.step hs h

end Sys2Proof.Machine

namespace Sys2Proof.Machine

open Sys2Proof

/-! ## Posting and the PI law (R91 to R93) -/

namespace HeatUnit

/-- A posting changes the posted demand only (R93). -/
theorem post_rest (h : HeatUnit) : { h.post with posted := h.posted } = h := by
  unfold post
  split
  · split <;> rfl
  · rfl

@[simp] theorem post_integral (h : HeatUnit) : h.post.integral = h.integral :=
  (congrArg HeatUnit.integral h.post_rest :)

@[simp] theorem post_lastError (h : HeatUnit) : h.post.lastError = h.lastError :=
  (congrArg HeatUnit.lastError h.post_rest :)

@[simp] theorem post_computed (h : HeatUnit) : h.post.computed = h.computed :=
  (congrArg HeatUnit.computed h.post_rest :)

/-- The computed demand is posted, or none (R93). -/
theorem post_posted_le (h : HeatUnit) : h.post.posted ≤ h.computed := by
  unfold post
  split
  · split
    · exact le_rfl
    · exact Nat.zero_le _
  · exact Nat.zero_le _

/-- Under an order, with the active stage's relay CLOSED, the computed demand is posted (R93). -/
theorem post_of_closed {h : HeatUnit} {a : Element} {demand : Nat} (active : h.active = some a) (ordered : h.ordered = true)
    (closed : h.relay a = .closed) (computed : h.computed = demand) : h.post = { h with posted := demand } := by
  simp only [post, active, ordered, closed, and_self, if_true, ← computed]

end HeatUnit

/-- The demand of the PI law lies between 0 and 20 (R91). -/
theorem demandOf_eq (kp : Nat) (error integral : Int) :
    (demandOf kp error integral : Int) = max 0 (min 20 (roundConv (kp * error + integral) 256)) := by
  rw [demandOf, clampInt_eq _ _ _ (by decide)]
  omega

theorem demandOf_le (kp : Nat) (error integral : Int) : demandOf kp error integral ≤ 20 := by
  have := demandOf_eq kp error integral
  omega

/-- The error of a regulation step (R91). -/
def regulationError (effective temp : Int) : Int := max (-500) (min 500 (effective - temp))

/-- The integral after a regulation step, held in a short window while the error is not negative (R92). -/
def HeatUnit.integrated (h : HeatUnit) (ki : Nat) (error : Int) : Int :=
  if h.shortLast = true ∧ 0 ≤ error then h.integral else max 0 (min 5120 (h.integral + roundConv (ki * error) 16))

/-- A regulation step (R91, R92). -/
theorem HeatUnit.regulate_eq {h : HeatUnit} {t e : Int} (v : CalValues) (measured : h.temp = some t)
    (effective : h.effective = some e) :
    let error := regulationError e t
    let integral := h.integrated v.ki error
    h.regulate v =
      HeatUnit.post { h with integral := integral, lastError := error, computed := demandOf v.kp error integral } := by
  intro error integral
  have clamped : clampInt (-500) 500 (e - t) = error := clampInt_eq _ _ _ (by decide)
  have held : (if h.shortLast && decide (0 ≤ error) then h.integral
      else clampInt 0 5120 (h.integral + roundConv (v.ki * error) 16)) = integral := by
    rw [clampInt_eq _ _ _ (by decide)]
    simp [integral, HeatUnit.integrated]
  simp only [HeatUnit.regulate, measured, effective, clamped, held]

/-- Settles O31: the fields of the PI law are those of the step before its posting, and a posting is at most the demand. -/
theorem regulationStep : Obligations.RegulationStep := by
  intro h v t e measured effective
  dsimp only
  rw [HeatUnit.regulate_eq v measured effective]
  refine ⟨HeatUnit.post_lastError _, HeatUnit.post_integral _, ?_, (HeatUnit.post_posted_le _).trans (demandOf_le _ _ _)⟩
  rw [HeatUnit.post_computed]
  exact demandOf_eq _ _ _

/-! ## Relay settles (R96 to R99) -/

namespace HeatUnit

variable {h : HeatUnit} {st : Settle} {v : CalValues}

/-- A unit whose relay has closed at the end of its settle, the stage active and without a grant (R97, R134). -/
def closing (h : HeatUnit) (e : Element) : HeatUnit :=
  { h.setRelay e .closed with settle := none, active := some e, grantStage := none }

/-- A unit that has switched from stage `old` to stage `e` (R96, R98). -/
def switching (h : HeatUnit) (v : CalValues) (old e : Element) : HeatUnit :=
  let i := rescale h.integral (v.rating old) (v.rating e)
  { (h.closing e).setRelay old .opened with integral := i, computed := demandOf v.kp h.lastError i }

theorem settleExpiry_initial (settling : h.settle = some st) (first : h.active = none) :
    h.settleExpiry v = (h.closing st.toward).post.takePendingSwitch := by
  simp only [settleExpiry, settling, first, closing]

theorem settleExpiry_switch {old : Element} (settling : h.settle = some st) (active : h.active = some old) :
    h.settleExpiry v = (h.switching v old st.toward).post.takePendingSwitch := by
  simp only [settleExpiry, settling, active, closing, switching]

@[simp] theorem setRelay_integral (h : HeatUnit) (e : Element) (r : Relay) : (h.setRelay e r).integral = h.integral := by
  cases e <;> rfl

@[simp] theorem setRelay_order (h : HeatUnit) (e : Element) (r : Relay) : (h.setRelay e r).order = h.order := by
  cases e <;> rfl

@[simp] theorem setRelay_active (h : HeatUnit) (e : Element) (r : Relay) : (h.setRelay e r).active = h.active := by
  cases e <;> rfl

@[simp] theorem setRelay_computed (h : HeatUnit) (e : Element) (r : Relay) : (h.setRelay e r).computed = h.computed := by
  cases e <;> rfl

@[simp] theorem setRelay_pendingSwitch (h : HeatUnit) (e : Element) (r : Relay) :
    (h.setRelay e r).pendingSwitch = h.pendingSwitch := by
  cases e <;> rfl

theorem relay_setRelay_other (h : HeatUnit) {e e' : Element} (other : e' ≠ e) (r : Relay) :
    (h.setRelay e r).relay e' = h.relay e' := by
  cases e with
  | main =>
    cases e' with
    | main => exact absurd rfl other
    | keep => rfl
  | keep =>
    cases e' with
    | main => rfl
    | keep => exact absurd rfl other

/-- Whether an order is in force depends on the order only. -/
theorem ordered_congr {g : HeatUnit} (order : g.order = h.order) : g.ordered = h.ordered := by
  simp only [ordered, order]

/-- A relay that has closed is CLOSED, whatever else the expiry changes. -/
theorem relay_closing (h : HeatUnit) (e : Element) : (h.closing e).relay e = .closed := by cases e <;> rfl

@[simp] theorem takePendingSwitch_integral (h : HeatUnit) : h.takePendingSwitch.integral = h.integral := by
  unfold takePendingSwitch
  split
  · split
    · rfl
    · exact (congrArg HeatUnit.integral (beginSettle_rest _ _) :)
  · rfl

/-- With no pending switch there is nothing to evaluate at an expiry (R99). -/
theorem takePendingSwitch_none (undisturbed : h.pendingSwitch = none) : h.takePendingSwitch = h := by
  simp only [takePendingSwitch, undisturbed]
  rw [← undisturbed]

end HeatUnit

/-- Settles O32: of an expiry only the switch touches the integral. -/
theorem integralRescaledAtStageSwitch : Obligations.IntegralRescaledAtStageSwitch := by
  refine ⟨fun i old new => clampInt_eq _ _ _ (by decide), by decide, by decide, by decide,
    fun h v st old settling active => ?_, fun h v st settling first => ?_⟩
  · rw [HeatUnit.settleExpiry_switch settling active, HeatUnit.takePendingSwitch_integral, HeatUnit.post_integral]
    rfl
  · rw [HeatUnit.settleExpiry_initial settling first, HeatUnit.takePendingSwitch_integral, HeatUnit.post_integral]
    exact HeatUnit.setRelay_integral _ _ _

namespace HeatUnit

variable {h : HeatUnit} {st : Settle} (v : CalValues)

/-- An initial close under an order, with no pending switch, posts the computed demand (R93, R97). -/
theorem settleExpiry_initial_posts (settling : h.settle = some st) (first : h.active = none) (ordered : h.ordered = true)
    (undisturbed : h.pendingSwitch = none) :
    h.settleExpiry v = { h.closing st.toward with posted := h.computed } := by
  have order : (h.closing st.toward).ordered = true := (ordered_congr (setRelay_order _ _ _)).trans ordered
  have pending : (h.closing st.toward).pendingSwitch = none := (setRelay_pendingSwitch _ _ _).trans undisturbed
  rw [settleExpiry_initial settling first, post_of_closed rfl order (h.relay_closing _) (setRelay_computed _ _ _)]
  exact takePendingSwitch_none (h := { h.closing st.toward with posted := h.computed }) pending

/-- A switch under an order, with no pending switch, posts the demand computed from the rescaled integral (R96, R98). -/
theorem settleExpiry_switch_posts {old : Element} (settling : h.settle = some st) (active : h.active = some old)
    (other : old ≠ st.toward) (ordered : h.ordered = true) (undisturbed : h.pendingSwitch = none) :
    h.settleExpiry v =
      { h.switching v old st.toward with posted := (h.switching v old st.toward).computed } := by
  have order : (h.switching v old st.toward).ordered = true :=
    (ordered_congr (g := h.switching v old st.toward)
      ((setRelay_order _ _ _).trans (setRelay_order _ _ _))).trans ordered
  have pending : (h.switching v old st.toward).pendingSwitch = none :=
    (setRelay_pendingSwitch _ _ _).trans ((setRelay_pendingSwitch _ _ _).trans undisturbed)
  have stage : (h.switching v old st.toward).active = some st.toward := setRelay_active _ _ _
  have closed : (h.switching v old st.toward).relay st.toward = .closed :=
    ((h.closing st.toward).relay_setRelay_other other.symm .opened).trans (h.relay_closing _)
  rw [settleExpiry_switch settling active, post_of_closed stage order closed rfl]
  exact takePendingSwitch_none pending

end HeatUnit

/-- Settles O33. -/
theorem settleExpiries : Obligations.SettleExpiries := by
  intro b s released
  have expiry : exec (.relaySettleExpiry b) s =
      .next (s.setHeat b ((s.bowl b).heat.settleExpiry (s.bowl b).cal.values)) :=
    exec_event (fun s => s.setHeat b ((s.bowl b).heat.settleExpiry (s.bowl b).cal.values)) rfl released
  refine ⟨fun st settling first ordered undisturbed => ?_, fun st old settling active other ordered undisturbed => ?_,
    exec_event (fun s => s.setHeat b { (s.bowl b).heat with configSettle := none }) rfl released⟩
  · rw [expiry, HeatUnit.settleExpiry_initial_posts _ settling first ordered undisturbed]
    rfl
  · rw [expiry, HeatUnit.settleExpiry_switch_posts _ settling active other ordered undisturbed]
    cases old <;> rfl

/-! ## SET_BOWL_CONFIG (R102, R103) -/

section BowlConfig

variable {s : State} {b : BowlId} {pb pm k1 k0 pn ph : Byte} {mode : StageMode}

/-- SET_BOWL_CONFIG with good parameters on an IDLE bowl, autoload over: refused while the config settle runs, and taken
otherwise (R102, R103). -/
theorem answerSetBowlConfig_idle (hb : bowlOf pb = some b) (coded : stageModeOf pm.toNat = some mode)
    (lower : 1 ≤ 256 * k1.toNat + k0.toNat) (upper : 256 * k1.toNat + k0.toNat ≤ 256) (band : 1 ≤ pn.toNat)
    (limit : 1 ≤ ph.toNat) (limit_le : ph.toNat ≤ 240) (loaded : s.image.autoload ≠ .inFlight)
    (idle : (s.bowl b).run.state = .idle) :
    answerSetBowlConfig [pb, pm, k1, k0, pn, ph] s =
      if (s.bowl b).heat.configSettle.isSome then refuse s .settling
      else ⟨s.setBowl b ((s.bowl b).configure mode (256 * k1.toNat + k0.toNat) pn.toNat ph.toNat), .ok, []⟩ := by
  have good : ¬(256 * k1.toNat + k0.toNat < 1 ∨ 256 < 256 * k1.toNat + k0.toNat ∨ pn.toNat < 1 ∨ ph.toNat < 1 ∨
      240 < ph.toNat) := by omega
  have ended : s.autoloading = false := by simp [State.autoloading, loaded]
  simp only [answerSetBowlConfig, withBowl_of hb, coded, beNat_pair, if_neg good, ended, idle]
  simp

end BowlConfig

/-- Settles O34. -/
theorem bowlConfigTaken : Obligations.BowlConfigTaken := by
  intro x pb pm k1 k0 pn ph b mode s ht hb coded lower upper band limit limit_le loaded idle
  have answer := answerSetBowlConfig_idle hb coded lower upper band limit limit_le loaded idle
  refine ⟨fun settling => ?_, fun settled => ?_⟩
  · rw [if_pos settling] at answer
    exact exec_refused rfl ht answer
  · rw [if_neg (by simp [settled])] at answer
    rw [exec_answered rfl ht answer rfl]
    simp [Bowl.configure, idle]

end Sys2Proof.Machine

namespace Sys2Proof.Machine

open Sys2Proof

/-! ## The firing decision (R101) -/

namespace HeatUnit

/-- The element fired is the active stage, where the order, the latch, its relay and its grant allow it (R101). -/
theorem fire_firing_iff (h : HeatUnit) (p : Nat) (e : Element) :
    (h.fire p).firing = some e ↔
      h.active = some e ∧ h.ordered = true ∧ h.latch = false ∧ h.relay e = .closed ∧ h.grantStage = some e ∧ p < h.grant := by
  cases active : h.active with
  | none => simp [fire, active]
  | some a =>
    simp only [fire, active, Option.some.injEq]
    split
    · rename_i allowed
      constructor
      · intro fired
        cases fired
        exact ⟨rfl, allowed⟩
      · exact fun fires => congrArg some fires.1
    · rename_i barred
      constructor
      · intro fired
        cases fired
      · rintro ⟨rfl, allowed⟩
        exact absurd allowed barred

/-! ## A window start at the heating unit (R92, R95, R127) -/

variable {h : HeatUnit} {mode : StageMode} {grant : Nat}

/-- A unit that has its grant for the active stage and its short-last-window record (R92). -/
def granted (h : HeatUnit) (read grant : Nat) : HeatUnit :=
  { h with grant := grant, grantStage := h.active, shortLast := decide (grant < read) }

/-- A window start changes the grant with its stage, the short-last-window record, and by the AUTO counts what a counted window
changes (R92, R95). -/
theorem takeGrant_rest (h : HeatUnit) (mode : StageMode) (read grant : Nat) :
    { h.takeGrant mode read grant with
      lowCount := h.lowCount, highCount := h.highCount, settle := h.settle, relayMain := h.relayMain
      relayKeep := h.relayKeep } = h.granted read grant :=
  autoCount_rest _ mode read

@[simp] theorem takeGrant_grant (h : HeatUnit) (mode : StageMode) (read grant : Nat) :
    (h.takeGrant mode read grant).grant = grant := (congrArg HeatUnit.grant (h.takeGrant_rest mode read grant) :)

@[simp] theorem takeGrant_grantStage (h : HeatUnit) (mode : StageMode) (read grant : Nat) :
    (h.takeGrant mode read grant).grantStage = h.active := (congrArg HeatUnit.grantStage (h.takeGrant_rest mode read grant) :)

/-- A window is short where the grant is below the demand read (R92). -/
theorem takeGrant_shortLast (h : HeatUnit) (mode : StageMode) (read grant : Nat) :
    let g := h.takeGrant mode read grant
    g.shortLast = decide (g.grant < read) := by
  dsimp only
  rw [takeGrant_grant]
  exact (congrArg HeatUnit.shortLast (h.takeGrant_rest mode read grant) :)

/-- All that a window start with its first firing decision changes of a heating unit (R92, R95, R101). -/
theorem takeGrant_fire_rest (h : HeatUnit) (mode : StageMode) (read grant : Nat) :
    { (h.takeGrant mode read grant).fire 0 with
      grant := h.grant, grantStage := h.grantStage, shortLast := h.shortLast, lowCount := h.lowCount
      highCount := h.highCount, settle := h.settle, relayMain := h.relayMain, relayKeep := h.relayKeep
      firing := h.firing } = h :=
  (congrArg (fun g : HeatUnit =>
    { g with grant := h.grant, grantStage := h.grantStage, shortLast := h.shortLast, firing := h.firing })
    (h.takeGrant_rest mode read grant) :)

/-- The arbiter reads the posted demand of an active stage (R128). -/
theorem demandHalfCycles_active {e : Element} (active : h.active = some e) : h.demandHalfCycles = h.posted := by
  simp [demandHalfCycles, active]

/-- A window of an active MAIN stage is counted; the tenth low one begins the switch to KEEP with both counts 0 (R95). -/
theorem takeGrant_main (counting : h.Counting mode) (active : h.active = some .main) (read : Nat) :
    let g := h.takeGrant mode read grant
    g.relayMain = h.relayMain ∧
      if h.lowAfter read < 10 then
        g.lowCount = h.lowAfter read ∧ g.highCount = h.highCount ∧ g.settle = none ∧ g.relayKeep = h.relayKeep
      else g.settle = some ⟨.keep, 60⟩ ∧ g.relayKeep = .settling ∧ g.lowCount = 0 ∧ g.highCount = 0 := by
  have settled := counting.2.2
  have counted : h.takeGrant mode read grant =
      if 10 ≤ h.lowAfter read then (h.granted read grant).requestSwitch .keep
      else { h.granted read grant with lowCount := h.lowAfter read } :=
    autoCount_main (h := h.granted read grant) counting active read
  dsimp only
  rw [counted]
  by_cases low : h.lowAfter read < 10
  · rw [if_pos low, if_neg (by omega)]
    exact ⟨rfl, rfl, rfl, settled, rfl⟩
  · rw [if_neg low, if_pos (by omega), requestSwitch_other (h := h.granted read grant) settled active (by decide)]
    exact ⟨rfl, rfl, rfl, rfl, rfl⟩

/-- A window of an active KEEP stage is counted; the fifth full one begins the switch to MAIN with both counts 0 (R95). -/
theorem takeGrant_keep (counting : h.Counting mode) (active : h.active = some .keep) (read : Nat) :
    let g := h.takeGrant mode read grant
    g.relayKeep = h.relayKeep ∧
      if h.fullAfter read < 5 then
        g.highCount = h.fullAfter read ∧ g.lowCount = h.lowCount ∧ g.settle = none ∧ g.relayMain = h.relayMain
      else g.settle = some ⟨.main, 60⟩ ∧ g.relayMain = .settling ∧ g.lowCount = 0 ∧ g.highCount = 0 := by
  have settled := counting.2.2
  have counted : h.takeGrant mode read grant =
      if 5 ≤ h.fullAfter read then (h.granted read grant).requestSwitch .main
      else { h.granted read grant with highCount := h.fullAfter read } :=
    autoCount_keep (h := h.granted read grant) counting active read
  dsimp only
  rw [counted]
  by_cases full : h.fullAfter read < 5
  · rw [if_pos full, if_neg (by omega)]
    exact ⟨rfl, rfl, rfl, settled, rfl⟩
  · rw [if_neg full, if_pos (by omega), requestSwitch_other (h := h.granted read grant) settled active (by decide)]
    exact ⟨rfl, rfl, rfl, rfl, rfl⟩

/-- Where windows are not counted the grant is all that is taken (R92). -/
theorem takeGrant_uncounted (idle : ¬h.Counting mode ∨ h.active = none) (read : Nat) :
    h.takeGrant mode read grant = h.granted read grant :=
  autoCount_uncounted (h := h.granted read grant) idle read

/-- A switch that a window start begins leaves the relay of the active stage (R98). -/
theorem takeGrant_relay_active {e : Element} (active : h.active = some e) (read : Nat) :
    (h.takeGrant mode read grant).relay e = h.relay e := by
  by_cases counting : h.Counting mode
  · cases e with
    | main => exact (takeGrant_main counting active read).1
    | keep => exact (takeGrant_keep counting active read).1
  · rw [takeGrant_uncounted (.inl counting)]
    cases e <;> rfl

/-- The first half-cycle of a window fires the active stage with any grant at all (R101, R127). -/
theorem takeGrant_fire_iff (read : Nat) (e : Element) :
    let g := (h.takeGrant mode read grant).fire 0
    g.firing = some e ↔
      h.active = some e ∧ h.ordered = true ∧ h.latch = false ∧ h.relay e = .closed ∧ 0 < g.grant := by
  have granted : ((h.takeGrant mode read grant).fire 0).grant = grant := takeGrant_grant h mode read grant
  have rest := h.takeGrant_rest mode read grant
  have active : (h.takeGrant mode read grant).active = h.active := (congrArg HeatUnit.active rest :)
  have ordered : (h.takeGrant mode read grant).ordered = h.ordered := ordered_congr (congrArg HeatUnit.order rest :)
  have latch : (h.takeGrant mode read grant).latch = h.latch := (congrArg HeatUnit.latch rest :)
  dsimp only
  rw [fire_firing_iff, active, ordered, latch, takeGrant_grantStage, takeGrant_grant, granted]
  constructor
  · rintro ⟨on, order, clear, closed, -, some_grant⟩
    exact ⟨on, order, clear, takeGrant_relay_active on read ▸ closed, some_grant⟩
  · rintro ⟨on, order, clear, closed, some_grant⟩
    exact ⟨on, order, clear, (takeGrant_relay_active on read).trans closed, on, some_grant⟩

end HeatUnit

/-! ## A window start at the part (R127) -/

/-- A bowl after its share of a window start with account `a` (R127). -/
def Bowl.takeResults (x : Bowl) (a : Account) (b : BowlId) : Bowl :=
  let formed := x.stir.takeCeiling (a.motors.get b).ceiling
  { x with
    heat := x.heat.takeGrant x.cal.values.mode (a.heaters.get b).posted (a.heaters.get b).grant
    stir := formed.1
    run :=
      { x.run with flags := { x.run.flags with l := x.run.flags.l || formed.2, b := x.run.flags.b || a.shortBowl b } } }

namespace State

/-- Each bowl takes its share of a window start's account (R127). -/
theorem bowl_windowStart (s : State) (b : BowlId) : s.windowStart.bowl b = (s.bowl b).takeResults s.nextAccount b := by
  let recorded : State := { s with arbiter := s.arbiter.record s.nextAccount }
  let first := recorded.handResults s.nextAccount .one
  have handed : (first.handResults s.nextAccount .two).bowl b = (s.bowl b).takeResults s.nextAccount b := by
    cases b with
    | one => exact (first.other_handResults s.nextAccount .two).trans (recorded.bowl_handResults s.nextAccount .one)
    | two =>
      rw [first.bowl_handResults s.nextAccount .two]
      exact congrArg (fun x : Bowl => x.takeResults s.nextAccount .two) (recorded.other_handResults s.nextAccount .one)
  simp only [windowStart]
  split
  · exact handed
  · exact handed

/-- A window start leaves the store, the image and the ports, and records its account (R127). -/
theorem windowStart_shared (s : State) :
    s.windowStart.store = s.store ∧ s.windowStart.image = s.image ∧ s.windowStart.ports = s.ports ∧
      s.windowStart.arbiter = s.arbiter.record s.nextAccount := by
  simp only [windowStart, handResults]
  split <;> simp

/-- BUDGET_SHORT is noticed at a window start exactly where some grant is short (R137). -/
theorem windowStart_notices (s : State) :
    s.windowStart.notices =
      if s.nextAccount.shortBowl .one || s.nextAccount.shortBowl .two then (s.raise .budgetShort).notices else s.notices := by
  have handed (t : State) (a : Account) : ((t.handResults a .one).handResults a .two).notices = t.notices :=
    (handResults_shared _ a .two).1.trans (handResults_shared t a .one).1
  simp only [windowStart]
  split
  · simp only [raise, handed]
  · exact handed _ _

/-- A raising changes the flags of a port only (R173). -/
theorem raise_settings (s : State) (c : Cause) (p : PortId) :
    { (s.raise c).notices.get p with flags := (s.notices.get p).flags } = s.notices.get p := by
  cases p <;> rfl

/-- The notices of both ports after a window start (R137). -/
theorem windowStart_notice (s : State) (p : PortId) :
    { s.windowStart.notices.get p with flags := (s.notices.get p).flags } = s.notices.get p ∧
      ∀ i, i < 15 → (s.windowStart.notices.get p).flags.getLsbD i =
        (((s.nextAccount.shortBowl .one || s.nextAccount.shortBowl .two) && decide (i = Cause.budgetShort.number)) ||
          (s.notices.get p).flags.getLsbD i) := by
  rw [windowStart_notices]
  cases short : s.nextAccount.shortBowl .one || s.nextAccount.shortBowl .two with
  | true =>
    refine ⟨s.raise_settings _ p, fun i hi => ?_⟩
    rw [if_pos rfl, raise_flags]
    simp [Cause.getLsbD_mask _ _ hi, Bool.or_comm]
  | false => exact ⟨rfl, fun _ _ => rfl⟩

/-- A position handed makes each unit's firing decision, and changes nothing else of a bowl (R101, R123). -/
theorem bowl_handPosition (s : State) (p : Nat) (b : BowlId) :
    (s.handPosition p).bowl b = { s.bowl b with heat := (s.bowl b).heat.fire p } := by
  cases b <;> rfl

/-- The state in which the window start of a zero-cross is made (R123). -/
def atWindowStart (s : State) : State := { s with arbiter := { s.arbiter.restartGap with position := some 0 } }

/-- At position 19, and with none, a zero-cross starts a window (R123). -/
theorem halfCycle_start {s : State} (h : s.arbiter.position = none ∨ s.arbiter.position = some 19) :
    s.halfCycle = s.atWindowStart.windowStart.handPosition 0 := by
  rcases h with h | h <;> simp [halfCycle, h, atWindowStart]

/-- At any other position it goes on to the next one (R123). -/
theorem halfCycle_inside {s : State} {p : Nat} (h : s.arbiter.position = some p) (inside : p ≠ 19) :
    s.halfCycle = State.handPosition { s with arbiter := { s.arbiter.restartGap with position := some (p + 1) } } (p + 1) := by
  simp [halfCycle, h, inside]

/-- A position handed leaves all but the heating units. -/
theorem handPosition_shared (s : State) (p : Nat) :
    (s.handPosition p).store = s.store ∧ (s.handPosition p).image = s.image ∧ (s.handPosition p).ports = s.ports ∧
      (s.handPosition p).arbiter = s.arbiter ∧ (s.handPosition p).notices = s.notices :=
  ⟨rfl, rfl, rfl, rfl, rfl⟩

/-- The demand that the account reads of a heater (R128). -/
theorem nextAccount_posted (s : State) (b : BowlId) :
    (s.nextAccount.heaters.get b).posted = (s.bowl b).heat.demandHalfCycles := by
  cases b <;> rfl

/-- `t` comes of `s` by a zero-cross that starts a window: the gap timer restarts, the account is recorded, each bowl takes its
share and makes its firing decision, and BUDGET_SHORT is noticed where some grant is short (R123, R127, R137). -/
structure StartsWindow (s t : State) : Prop where
  store : t.store = s.store
  image : t.image = s.image
  ports : t.ports = s.ports
  arbiter : t.arbiter = Arbiter.record { s.arbiter.restartGap with position := some 0 } s.nextAccount
  notices : ∀ p,
    { t.notices.get p with flags := (s.notices.get p).flags } = s.notices.get p ∧
      ∀ i, i < 15 → (t.notices.get p).flags.getLsbD i =
        (((s.nextAccount.shortBowl .one || s.nextAccount.shortBowl .two) && decide (i = Cause.budgetShort.number)) ||
          (s.notices.get p).flags.getLsbD i)
  bowl : ∀ b, t.bowl b =
    { (s.bowl b).takeResults s.nextAccount b with heat := ((s.bowl b).takeResults s.nextAccount b).heat.fire 0 }

theorem halfCycle_startsWindow {s : State} (h : s.arbiter.position = none ∨ s.arbiter.position = some 19) :
    s.StartsWindow s.halfCycle := by
  rw [halfCycle_start h]
  obtain ⟨store, image, ports, arbiter, notices⟩ := s.atWindowStart.windowStart.handPosition_shared 0
  obtain ⟨store', image', ports', arbiter'⟩ := s.atWindowStart.windowStart_shared
  refine ⟨store.trans store', image.trans image', ports.trans ports', arbiter.trans arbiter', fun p => ?_, fun b => ?_⟩
  · rw [notices]
    exact s.atWindowStart.windowStart_notice p
  · rw [bowl_handPosition, bowl_windowStart]
    rfl

end State

/-- Settles O44: inside a window the position alone moves; a window start is read off its units' shares. -/
theorem zeroCrossAdvancesWindow : Obligations.ZeroCrossAdvancesWindow := by
  intro since s released present
  have next : exec (.zeroCrossArrival since) s = .next s.halfCycle :=
    (exec_event (fun s => s.zeroCross since) rfl released).trans (congrArg _ (if_pos present))
  refine ⟨fun p position inside => ?_, fun start => ?_, fun u p b => ?_⟩
  · rw [next, State.halfCycle_inside position inside]
    rfl
  · have started := State.halfCycle_startsWindow start
    generalize s.halfCycle = t at next started
    have arbiter := started.arbiter
    refine ⟨t, next, started.store, started.image, started.ports, ?_⟩
    rw [arbiter]
    refine ⟨present, rfl, rfl, rfl, rfl, rfl, rfl, rfl, rfl, rfl, rfl, rfl, started.notices, fun first => ?_, fun a window => ?_,
      fun b => ?_, fun b => ?_⟩
    · simp only [Arbiter.record, Arbiter.restartGap, first]
    · simp only [Arbiter.record, Arbiter.restartGap, window]
    · have heat := congrArg Bowl.heat (started.bowl b)
      have posted {e : Element} (active : (s.bowl b).heat.active = some e) :
          (s.nextAccount.heaters.get b).posted = (s.bowl b).heat.posted :=
        (s.nextAccount_posted b).trans (HeatUnit.demandHalfCycles_active active)
      dsimp only [Bowl.takeResults] at heat ⊢
      rw [heat]
      refine ⟨HeatUnit.takeGrant_grantStage _ _ _ _, ?_, fun counting active => ?_, fun counting active => ?_, fun idle => ?_,
        fun e => ?_, HeatUnit.takeGrant_fire_rest _ _ _ _⟩
      · exact HeatUnit.takeGrant_shortLast _ _ _ _
      · rw [posted active]
        exact HeatUnit.takeGrant_main counting active _
      · rw [posted active]
        exact HeatUnit.takeGrant_keep counting active _
      · rw [HeatUnit.takeGrant_uncounted idle]
        exact ⟨rfl, rfl, rfl, rfl, rfl⟩
      · exact HeatUnit.takeGrant_fire_iff _ e
    · rw [started.bowl b]
      exact ⟨HeatUnit.takeGrant_grant _ _ _ _, StirUnit.form_ceiling _, StirUnit.form_mainsHold _, ⟨rfl, rfl⟩, rfl, rfl⟩
  · exact ⟨_, (u.bowl b).heat.fire_firing_iff p, u.bowl_handPosition p b⟩

end Sys2Proof.Machine

namespace Sys2Proof.Machine

open Sys2Proof

/-! ## A safe motor, through the operations of its stirring unit (R108, R109, R111) -/

namespace StirUnit

@[simp] theorem takeDirection_lid (u : StirUnit) (d : Direction) : (u.takeDirection d).lid = u.lid := by
  unfold takeDirection
  split
  · rfl
  · split
    · split <;> rfl
    · split <;> rfl

end StirUnit

/-- A ramp step does not leave the range of setpoint and target (R111). -/
theorem rampToward_le {setpoint target top : Nat} (hs : setpoint ≤ top) (ht : target ≤ top) :
    rampToward setpoint target ≤ top := by
  unfold rampToward
  split <;> omega

/-- A lid change forms the target for the lid that has been read (R108). -/
theorem StirUnit.lidChanged_safe (u : StirUnit) (level : SwitchLevel) : (u.lidChanged level).1.Safe :=
  StirUnit.form_safe _ (by simp [switchRead])

namespace StirUnit.Safe

variable {u : StirUnit} (h : u.Safe)
include h

/-- A formation after any change that leaves the lid as it was (R109). -/
theorem form {v : StirUnit} (lid : v.lid = u.lid := by rfl) : v.form.1.Safe := v.form_safe (lid ▸ h.1)

/-- Another reading of the lid switch: only one that opens the lid asks for a motor at 0. -/
theorem withLid {i : SwitchInput} (unread : i.firstRead = false → i.level = .opened)
    (opens : i.level = .opened → u.lid.level = .opened) : StirUnit.Safe { u with lid := i } :=
  ⟨unread, fun opened => h.2.1 (opens opened), h.2.2⟩

/-- A lock that was not CONFIRMED becomes released: its motor keeps to 1,200 rpm already. -/
theorem release (unconfirmed : u.lock ≠ .confirmed) : u.release.Safe := ⟨h.1, h.2.1, fun _ => h.2.2 unconfirmed⟩

/-! ### Orders (R106, R120) -/

theorem handStir (isNew : Bool) (p : StirPart) : (u.handStir isNew p).1.Safe := h.form (takeDirection_lid _ _)

theorem handZero : u.handZero.1.Safe := h.form

theorem handForcedOff : u.handForcedOff.1.Safe := h.form

/-! ### Events (R107, R108, R110, R111, R112 to R114) -/

theorem tryRelease : u.tryRelease.1.Safe := by
  unfold StirUnit.tryRelease
  split
  · exact h.form
  · exact h

theorem tryReversal : u.tryReversal.1.Safe := by
  unfold StirUnit.tryReversal
  split
  · exact h.form
  · exact h

theorem tacho (pulses : Nat) : (u.tacho pulses).1.Safe :=
  tryRelease (u := StirUnit.stallTest { u with
    measured := speedOfPulses pulses, standstill := standstillAfter u.standstill (speedOfPulses pulses) }) h

theorem standstillExpiry : u.standstillExpiry.1.Safe := by
  unfold StirUnit.standstillExpiry
  split
  · exact tryRelease (tryReversal (u := { u with standstill := .reached }) h)
  · exact h
  · exact h

theorem rampStep : u.rampStep.1.Safe := by
  obtain ⟨unread, opened, unconfirmed⟩ := h
  have moved : StirUnit.Safe { u with setpoint := rampToward u.setpoint u.target, rampMs := 0 } := by
    refine ⟨unread, fun lid => ?_, fun lock => ?_⟩
    · obtain ⟨target, setpoint⟩ := opened lid
      exact ⟨target, Nat.le_zero.mp (rampToward_le setpoint.le target.le)⟩
    · obtain ⟨target, setpoint⟩ := unconfirmed lock
      exact ⟨target, rampToward_le setpoint target⟩
  exact moved.tryReversal.tryRelease

theorem phaseChange : u.phaseChange.1.Safe := by
  unfold StirUnit.phaseChange
  split
  · exact h.form
  all_goals exact h

theorem levelChange (sw : SwitchId) (level : SwitchLevel) :
    (u.setSwitch sw ((u.switch sw).levelChange level)).Safe := by
  cases sw with
  | lid => exact h.withLid h.1 id
  | confirm => exact h

/-- The first reading of the lid switch finds the lid OPEN and the motor at 0, whichever level it reads (R108). -/
theorem firstReading (sw : SwitchId) (level : SwitchLevel) :
    (u.setSwitch sw ((u.switch sw).firstReading level)).Safe := by
  cases sw with
  | lid =>
    refine h.withLid (i := u.lid.firstReading level) ?_ ?_
    all_goals
      unfold SwitchInput.firstReading
      split
    · exact h.1
    · simp [switchRead]
    · exact id
    · rename_i unread
      exact fun _ => h.1 (by simpa using unread)
  | confirm => exact h

theorem confirmChanged (level : SwitchLevel) : (u.confirmChanged level).1.Safe := by
  unfold StirUnit.confirmChanged
  dsimp only
  split
  · exact h.form rfl
  · exact h.form rfl
  all_goals exact h

/-- The stall timer stopped. -/
theorem stopStall : StirUnit.Safe { u with stall := none } := h

/-- A millisecond counts timers only. -/
theorem tick : u.tick.Safe := by
  unfold StirUnit.Safe StirUnit.tick
  exact h

end StirUnit.Safe

/-! ## Both motors safe, through the operations of a bowl -/

/-- A test that refuses keeps what the state before it has. -/
theorem refuseIf_keeps {P : State → Prop} {s : State} {c : Prop} [Decidable c] {st : Status} {r : Reply} (hs : P s)
    (taken : ¬c → P r.state) : P (if c then refuse s st else r).state := by
  split
  · exact hs
  · rename_i passed
    exact taken passed

/-- A request of one bowl keeps what its answer for each bowl keeps. -/
theorem withBowl_keeps {P : State → Prop} {s : State} {pb : Byte} {f : BowlId → Reply} (hs : P s)
    (taken : ∀ b, P (f b).state) : P (withBowl pb s f).state := by
  unfold withBowl
  split
  · exact taken _
  · exact hs

theorem State.motorsSafe_iff (s : State) : s.MotorsSafe ↔ ∀ b, (s.bowl b).stir.Safe :=
  ⟨fun h b => by cases b; exacts [h.1, h.2], fun h => ⟨h .one, h .two⟩⟩

namespace State.MotorsSafe

variable {s : State} (hs : s.MotorsSafe) (b : BowlId)
include hs

theorem unit : (s.bowl b).stir.Safe := s.motorsSafe_iff.mp hs b

/-- The bowls as they were, whatever became of the rest. -/
theorem of_bowl {t : State} (same : ∀ c, t.bowl c = s.bowl c) : t.MotorsSafe :=
  t.motorsSafe_iff.mpr fun c => (same c).symm ▸ hs.unit c

theorem setBowl {x : Bowl} (safe : x.stir.Safe) : (s.setBowl b x).MotorsSafe := by
  refine (State.motorsSafe_iff _).mpr fun c => ?_
  rcases eq_or_otherBowl b c with rfl | rfl
  · simpa using safe
  · simpa using hs.unit _

theorem setRun (r : RunContext) : (s.setRun b r).MotorsSafe := hs.setBowl b (hs.unit b)

theorem setWeigh (c : Channel) : (s.setWeigh b c).MotorsSafe := hs.setBowl b (hs.unit b)

theorem setHeat (h : HeatUnit) : (s.setHeat b h).MotorsSafe := hs.setBowl b (hs.unit b)

theorem setCal (c : BowlCal) : (s.setCal b c).MotorsSafe := hs.setBowl b (hs.unit b)

theorem setFlags (w : FlagWord) : (s.setFlags b w).MotorsSafe := hs.setRun b _

theorem setStir {u : StirUnit} (safe : u.Safe) : (s.setStir b u).MotorsSafe := hs.setBowl b safe

theorem raise (c : Cause) : (s.raise c).MotorsSafe := hs

theorem noteClamp (c : Bool) : (s.noteClamp b c).MotorsSafe := by
  cases c with
  | false => exact hs
  | true => exact hs.setFlags b _

theorem noteShort (c : Bool) : (s.noteShort b c).MotorsSafe := by
  cases c with
  | false => exact hs
  | true => exact hs.setFlags b _

theorem putStir {r : StirUnit × Bool} (safe : r.1.Safe) : (s.putStir b r).MotorsSafe :=
  (hs.setStir b safe).noteClamp b _

theorem putHeat (r : HeatUnit × Bool) : (s.putHeat b r).MotorsSafe := (hs.setHeat b _).noteClamp b _

/-! ### Handing orders -/

theorem giveRest (runEnd : Bool) : (s.giveRest b runEnd).MotorsSafe :=
  (hs.setHeat b _).putStir b ((hs.setHeat b _).unit b).handZero

theorem forceOff : (s.forceOff b).MotorsSafe := (hs.setHeat b _).putStir b ((hs.setHeat b _).unit b).handForcedOff

theorem giveStir (isNew : Bool) (p : Option StirPart) : (s.giveStir b isNew p).MotorsSafe := by
  cases p with
  | none => exact hs.putStir b (hs.unit b).handZero
  | some p => exact hs.putStir b ((hs.unit b).handStir isNew p)

theorem giveHeat (isNew : Bool) (p : Option HeatPart) : (s.giveHeat b isNew p).MotorsSafe := by
  cases p with
  | none => exact hs.setHeat b _
  | some p => exact hs.putHeat b _

theorem handParts : (s.handParts b).MotorsSafe := ((hs.setRun b _).giveHeat b _ _).giveStir b _ _

theorem armWeigh (w : Option WeighPart) : (s.armWeigh b w).MotorsSafe := by
  cases w with
  | none => exact hs.setWeigh b _
  | some w => exact (hs.setWeigh b _).noteClamp b _

theorem withdrawWeigh : (s.withdrawWeigh b).MotorsSafe := hs.setWeigh b _

theorem handHold (band : HoldBand) (isNew : Bool) : (s.handHold b band isNew).MotorsSafe :=
  (hs.setHeat b _).giveStir b _ _

/-! ### Pausing -/

theorem enterPaused (back : ResumeState) : (s.enterPaused b back).MotorsSafe := (hs.setRun b _).giveRest b _

theorem addPause (join : PauseSet → PauseSet) : (s.addPause b join).MotorsSafe := by
  simp only [State.addPause]
  split
  · exact (hs.setRun b _).enterPaused b _
  · exact (hs.setRun b _).enterPaused b _
  · exact hs.setRun b _
  all_goals exact hs

theorem lidOpened : (s.lidOpened b).MotorsSafe := iteInduction (fun _ => hs.addPause b _) fun _ => hs

theorem retestLid : (s.retestLid b).MotorsSafe := iteInduction (fun _ => hs.addPause b _) fun _ => hs

/-! ### Entering steps -/

/-- The PAUSED state that a step entry may end in (R31). -/
theorem entryEnd (c : Bool) :
    (if c then (s.setRun b { (s.bowl b).run with state := .paused, resume := some .running }).raise (.ofBowl b .paused)
      else s).MotorsSafe :=
  iteInduction (fun _ => hs.setRun b _) fun _ => hs

/-- What a step entry hands: rest where the bowl is to pause, the step's parts otherwise (R31, R32). -/
theorem entryHanding (c : Bool) : (if c then s.giveRest b false else s.handParts b).MotorsSafe :=
  iteInduction (fun _ => hs.giveRest b _) fun _ => hs.handParts b

/-- A raising made on a condition. -/
theorem raiseIf (c : Prop) [Decidable c] (k : Cause) : (if c then s.raise k else s).MotorsSafe :=
  iteInduction (fun _ => hs) fun _ => hs

theorem enterStep (f : InForce) (index : Option Nat) : (s.enterStep b f index).MotorsSafe := by
  simp only [State.enterStep]
  refine entryEnd ?_ b _
  refine raise ?_ _
  refine raiseIf ?_ _ _
  refine armWeigh ?_ b _
  refine entryHanding ?_ b _
  exact ((hs.setRun b _).noteClamp b _).setRun b _

theorem pushLoop (f : InForce) (t : Nat) : (s.pushLoop b f t).MotorsSafe := by
  unfold State.pushLoop
  split
  · exact (hs.setRun b _).noteClamp b _
  · exact hs

theorem transferTo (t : Nat) : (s.transferTo b t).MotorsSafe := by
  unfold State.transferTo
  split
  · exact ((hs.setRun b _).enterStep b _ _).pushLoop b _ _
  · exact hs

theorem loopBack (t : Nat) : (s.loopBack b t).MotorsSafe := by
  unfold State.loopBack
  split
  · exact hs.enterStep b _ _
  · exact hs

/-! ### The end of a step and of a run -/

theorem leaveSlot : (s.leaveSlot b).MotorsSafe := hs.of_bowl fun c => s.bowl_leaveSlot b c

theorem endRun : (s.endRun b).MotorsSafe := (((hs.leaveSlot b).setRun b _).giveRest b _).withdrawWeigh b

theorem finishRun : (s.finishRun b).MotorsSafe := hs.endRun b

theorem enterHold (choice : BandChoice) (limit : Nat) : (s.enterHold b choice limit).MotorsSafe :=
  ((hs.setRun b _).noteClamp b _).handHold b _ _

theorem applyFlow (st : Step) : (s.applyFlow b st).MotorsSafe := by
  simp only [State.applyFlow]
  split
  · exact hs.finishRun b
  · split
    · exact hs.transferTo b _
    · exact hs.transferTo b _
    · exact hs.finishRun b
    · exact hs.enterHold b _ _

theorem endStep : (s.endStep b).MotorsSafe := by
  have withdrawn (r : RunContext) := (hs.setRun b r).withdrawWeigh b
  simp only [State.endStep]
  split
  · exact (withdrawn _).loopBack b _
  · exact (withdrawn _).applyFlow b _

theorem evaluate : (s.evaluate b).MotorsSafe := iteInduction (fun _ => hs.endStep b) fun _ => hs

theorem changeFlags (w : FlagWord) : (s.changeFlags b w).MotorsSafe :=
  iteInduction (fun _ => hs.setFlags b w) fun _ => (hs.setFlags b w).evaluate b

/-! ### Calibrations and faults -/

theorem closeCalibration (outcome : CalOutcome) : (s.closeCalibration b outcome).MotorsSafe := hs.setBowl b (hs.unit b)

theorem endCalibration (outcome : CalOutcome) : (s.endCalibration b outcome).MotorsSafe :=
  (hs.closeCalibration b outcome).setRun b _

theorem abortCalibration : (s.abortCalibration b).state.MotorsSafe := by
  unfold State.abortCalibration
  split
  · exact hs.endCalibration b _
  · exact hs

theorem enterCalibrating (c : BowlCal) : (s.enterCalibrating b c).MotorsSafe :=
  (hs.setBowl b (hs.unit b).handZero).noteClamp b _

theorem calibrationConversion (r : Int) : (s.calibrationConversion b r).MotorsSafe := by
  have reported (c : Channel) (w : FlagWord) (k : BowlCal) := ((hs.setWeigh b c).setFlags b w).setCal b k
  simp only [State.calibrationConversion]
  split
  · exact reported _ _ _
  · exact (reported _ _ _).endCalibration b _

theorem reportFault (cause : FaultCause) (value : Int) : (s.reportFault b cause value).MotorsSafe := by
  have closed : (if (s.bowl b).run.state = .calibrating then s.closeCalibration b .aborted else s).MotorsSafe :=
    iteInduction (fun _ => hs.closeCalibration b _) fun _ => hs
  simp only [State.reportFault]
  split
  · exact hs.setRun b _
  · exact ((closed.setRun b _).forceOff b).withdrawWeigh b

/-! ### Requests taken -/

theorem beginRun (slot i : Nat) : (s.beginRun b slot i).MotorsSafe := by
  have joined : (s.setUser slot b true).MotorsSafe := hs.of_bowl fun c => s.bowl_setUser slot b c true
  exact (joined.setRun b _).transferTo b _

theorem beginManual (r : Record) : (s.beginManual b r).MotorsSafe := (hs.setRun b _).enterStep b _ _

theorem resumeBowl : (s.resumeBowl b).MotorsSafe := by
  have handed (r : RunContext) := (hs.setRun b r).handParts b
  simp only [State.resumeBowl]
  split
  · split
    · exact (hs.setRun b _).handHold b _ _
    · exact hs.setRun b _
  · exact iteInduction (fun _ => (handed _).endStep b) fun _ => (handed _).evaluate b

theorem clearFault : (s.clearFault b).MotorsSafe := (hs.setHeat b _).endRun b

theorem takeAnswer (no : Bool) : (s.takeAnswer b no).MotorsSafe := (hs.setRun b _).changeFlags b _

theorem takeAdjust (offset : Option Int) (speed extension : Option Nat) :
    (s.takeAdjust b offset speed extension).MotorsSafe := by
  have noted (r : RunContext) (c : Bool) := (hs.setRun b r).noteClamp b c
  have handIf {t : State} (ht : t.MotorsSafe) (c : Prop) [Decidable c] : (if c then t else t.handParts b).MotorsSafe :=
    iteInduction (fun _ => ht) fun _ => ht.handParts b
  have evaluateIf {t : State} (ht : t.MotorsSafe) (c : Prop) [Decidable c] : (if c then t else t.evaluate b).MotorsSafe :=
    iteInduction (fun _ => ht) fun _ => ht.evaluate b
  simp only [State.takeAdjust]
  split
  · exact evaluateIf ((handIf (noted _ _) _).retestLid b) _
  · exact noted _ _

/-! ### Events of one bowl -/

theorem loadCell (r : Int) : (s.loadCell b r).MotorsSafe :=
  iteInduction (fun _ => hs.calibrationConversion b r) fun _ => ((hs.setWeigh b _).noteClamp b _).changeFlags b _

theorem overTemperature (t : Int) : (s.overTemperature b t).MotorsSafe :=
  iteInduction (fun _ => (hs.setHeat b _).reportFault b _ _) fun _ => hs

theorem decideT : (s.decideT b).MotorsSafe := by
  simp only [State.decideT]
  split
  · exact iteInduction (fun _ => (hs.setHeat b _).changeFlags b _) fun _ => hs.setHeat b _
  · exact hs

theorem regulate : (s.regulate b).MotorsSafe := iteInduction (fun _ => hs.setHeat b _) fun _ => hs

theorem temperature (code : Nat) : (s.temperature b code).MotorsSafe := by
  unfold State.temperature
  split
  · have tested (h : HeatUnit) (t : Int) := ((hs.setHeat b h).overTemperature b t).retestLid b
    exact (((tested _ _).putStir b (((tested _ _).unit b).form)).decideT b).regulate b
  · exact iteInduction (fun _ => hs.setHeat b _) fun _ => (hs.setHeat b _).reportFault b _ _

theorem stallExpiry : (s.stallExpiry b).MotorsSafe :=
  iteInduction (fun _ => (hs.setStir b (hs.unit b).stopStall).reportFault b _ _) fun _ => hs

theorem lockExpiry : (s.lockExpiry b).MotorsSafe := by
  simp only [State.lockExpiry]
  split
  · rename_i engaging
    have faulted := (hs.setStir b ((hs.unit b).release (by simp [engaging.1]))).reportFault b .lock 1
    exact faulted.putStir b (faulted.unit b).form
  · exact hs

theorem lidChange (level : SwitchLevel) : (s.lidChange b level).MotorsSafe := by
  have faultIf {t : State} (ht : t.MotorsSafe) (c : Prop) [Decidable c] :
      (if c then t.reportFault b .lock 2 else t).MotorsSafe :=
    iteInduction (fun _ => ht.reportFault b _ _) fun _ => ht
  have openIf {t : State} (ht : t.MotorsSafe) (c : Prop) [Decidable c] : (if c then t.lidOpened b else t).MotorsSafe :=
    iteInduction (fun _ => ht.lidOpened b) fun _ => ht
  simp only [State.lidChange]
  split
  · rename_i same
    exact hs.setStir b ((hs.unit b).withLid (by simp [switchRead]) fun opened => same ▸ opened)
  · exact openIf (faultIf (hs.putStir b (StirUnit.lidChanged_safe _ level)) _) _

theorem confirmChange (level : SwitchLevel) : (s.confirmChange b level).MotorsSafe :=
  iteInduction (fun _ => hs.setStir b (hs.unit b)) fun _ => hs.putStir b ((hs.unit b).confirmChanged level)

theorem timeExpiry : (s.timeExpiry b).MotorsSafe := by
  simp only [State.timeExpiry]
  split
  · exact (hs.setRun b _).evaluate b
  · exact hs

theorem holdExpiry : (s.holdExpiry b).MotorsSafe := iteInduction (fun _ => hs.finishRun b) fun _ => hs

theorem endCompletion : (s.endCompletion b).MotorsSafe := iteInduction (fun _ => hs.endStep b) fun _ => hs

theorem unitsLoseMains : (s.unitsLoseMains b).MotorsSafe :=
  (hs.setHeat b _).putStir b ((hs.setHeat b _).unit b).form

theorem handResults (a : Account) : (s.handResults a b).MotorsSafe :=
  (((hs.setHeat b _).setStir b (hs.unit b).form).noteClamp b _).noteShort b _

end State.MotorsSafe

/-! ## Both motors safe, through every command -/

namespace State.MotorsSafe

variable {s : State} (hs : s.MotorsSafe)
include hs

theorem answerStart (params : List Byte) : (answerStart params s).state.MotorsSafe := by
  unfold Machine.answerStart
  split
  · refine withBowl_keeps hs fun b => refuseIf_keeps hs fun _ => ?_
    split
    · exact hs
    · split
      · exact hs
      · exact hs.beginRun b _ _
  · exact hs

theorem answerManual (params : List Byte) : (answerManual params s).state.MotorsSafe := by
  unfold Machine.answerManual
  split
  · refine withBowl_keeps hs fun b => ?_
    split
    · exact hs
    · split
      · exact hs
      · exact refuseIf_keeps hs fun _ => hs.beginManual b _
  · exact hs

theorem answerPause (params : List Byte) : (answerPause params s).state.MotorsSafe := by
  unfold Machine.answerPause
  split
  · refine withBowl_keeps hs fun b => ?_
    unfold State.pauseBowl
    cases (s.bowl b).run.state with
    | running | paused | holding => exact hs.addPause b _
    | idle | calibrating | fault => exact hs
  · exact hs

theorem answerResume (params : List Byte) : (answerResume params s).state.MotorsSafe := by
  unfold Machine.answerResume
  split
  · exact withBowl_keeps hs fun b => refuseIf_keeps hs fun _ => refuseIf_keeps hs fun _ => refuseIf_keeps hs fun _ =>
      hs.resumeBowl b
  · exact hs

theorem answerStop (params : List Byte) : (answerStop params s).state.MotorsSafe := by
  unfold Machine.answerStop
  split
  · refine withBowl_keeps hs fun b => ?_
    unfold State.stopBowl
    cases (s.bowl b).run.state with
    | idle => exact hs.forceOff b
    | running | paused | holding => exact (hs.forceOff b).endRun b
    | calibrating => exact hs.abortCalibration b
    | fault => exact refuseIf_keeps hs fun _ => hs.clearFault b
  · exact hs

theorem answerSkipStep (params : List Byte) : (answerSkipStep params s).state.MotorsSafe := by
  unfold Machine.answerSkipStep
  split
  · refine withBowl_keeps hs fun b => ?_
    cases (s.bowl b).run.state with
    | running => exact hs.endStep b
    | holding => exact hs.finishRun b
    | idle | paused | calibrating | fault => exact hs
  · exact hs

theorem answerAnswer (params : List Byte) : (answerAnswer params s).state.MotorsSafe := by
  unfold Machine.answerAnswer
  split
  · refine withBowl_keeps hs fun b => refuseIf_keeps hs fun _ => refuseIf_keeps hs fun _ => ?_
    split
    · exact hs
    · exact refuseIf_keeps hs fun _ => hs.takeAnswer b _
  · exact hs

theorem answerAdjust (params : List Byte) : (answerAdjust params s).state.MotorsSafe := by
  unfold Machine.answerAdjust
  split
  · exact withBowl_keeps hs fun b => refuseIf_keeps hs fun _ => refuseIf_keeps hs fun _ => hs.takeAdjust b _ _ _
  · exact hs

theorem answerTare (params : List Byte) : (answerTare params s).state.MotorsSafe := by
  unfold Machine.answerTare
  split
  · exact withBowl_keeps hs fun b => refuseIf_keeps hs fun _ => refuseIf_keeps hs fun _ => refuseIf_keeps hs fun _ =>
      refuseIf_keeps hs fun _ => hs.setWeigh b _
  · exact hs

theorem answerClearFault (params : List Byte) : (answerClearFault params s).state.MotorsSafe := by
  unfold Machine.answerClearFault
  split
  · exact withBowl_keeps hs fun b => refuseIf_keeps hs fun _ => refuseIf_keeps hs fun _ => hs.clearFault b
  · exact hs

theorem answerSetBowlConfig (params : List Byte) : (answerSetBowlConfig params s).state.MotorsSafe := by
  unfold Machine.answerSetBowlConfig
  split
  · refine withBowl_keeps hs fun b => ?_
    split
    · exact hs
    · exact refuseIf_keeps hs fun _ => refuseIf_keeps hs fun _ => refuseIf_keeps hs fun _ => refuseIf_keeps hs fun _ =>
        hs.setBowl b (hs.unit b)
  · exact hs

theorem answerCalibrateZero (params : List Byte) : (answerCalibrateZero params s).state.MotorsSafe := by
  unfold Machine.answerCalibrateZero
  split
  · split
    · exact hs
    · split
      · exact hs
      · exact hs.enterCalibrating _ _
  · exact hs

theorem answerCalibrateSpan (params : List Byte) : (answerCalibrateSpan params s).state.MotorsSafe := by
  unfold Machine.answerCalibrateSpan
  split
  · dsimp only
    split
    · exact hs
    · refine refuseIf_keeps hs fun _ => ?_
      split
      · exact hs
      · split
        · exact hs.enterCalibrating _ _
        · exact hs
  · exact hs

theorem answerAbortCalibration (params : List Byte) : (answerAbortCalibration params s).state.MotorsSafe := by
  unfold Machine.answerAbortCalibration
  split
  · split
    · exact hs
    · exact hs.abortCalibration _
  · exact hs

theorem ofStore {r : Reply} (h : r.OfStore s) : r.state.MotorsSafe :=
  hs.of_bowl fun c => congrArg (PerBowl.get · c) h.2

/-- Every answer of an owner leaves both motors safe. -/
theorem owner {code : Nat} {port : PortId} {params : List Byte} {owner : State → Reply}
    (h : ownerOf code port params = some owner) : (owner s).state.MotorsSafe := by
  unfold ownerOf at h
  split at h <;> cases h
  · exact hs.ofStore (answerNop_ofStore _ _)
  · exact hs.ofStore (answerGetStatus_ofStore _ _)
  · exact hs.ofStore (answerReadPage_ofStore _ _)
  · exact hs.ofStore (answerGetNotices_ofStore _ _ _)
  · exact hs.ofStore (answerAckNotice_ofStore _ _ _)
  · exact hs.ofStore (answerSetNotice_ofStore _ _ _)
  · exact hs.ofStore (answerSetThreshold_ofStore _ _ _)
  · exact hs.ofStore (answerResetPort_ofStore _ _ _)
  · exact hs.ofStore (answerOpenRecipe_ofStore _ _ _)
  · exact hs.ofStore (answerWriteStep_ofStore _ _ _)
  · exact hs.ofStore (answerSealRecipe_ofStore _ _ _)
  · exact hs.ofStore (answerDiscardRecipe_ofStore _ _ _)
  · exact hs.ofStore (answerUnloadRecipe_ofStore _ _)
  · exact hs.ofStore (answerListRecipes_ofStore _ _)
  · exact hs.answerStart _
  · exact hs.answerManual _
  · exact hs.answerPause _
  · exact hs.answerResume _
  · exact hs.answerStop _
  · exact hs.answerSkipStep _
  · exact hs.answerAnswer _
  · exact hs.answerAdjust _
  · exact hs.answerTare _
  · exact hs.answerClearFault _
  · exact hs.answerSetBowlConfig _
  · exact hs.answerCalibrateZero _
  · exact hs.answerCalibrateSpan _
  · exact hs.answerAbortCalibration _
  · exact hs.ofStore (answerSaveCalibration_ofStore _ _)
  · exact hs.ofStore (answerSetPowerCap_ofStore _ _)
  · exact hs.ofStore (answerSetArbitration_ofStore _ _)

/-! ### Events of the part -/

theorem endAutoload (r : AutoloadRead) : (s.endAutoload r).MotorsSafe := by
  unfold State.endAutoload
  split
  · split
    · exact hs
    · exact iteInduction (fun _ => hs) fun _ => hs
  all_goals exact hs

theorem tacho (b : BowlId) (pulses : Nat) : (s.tacho b pulses).MotorsSafe := by
  have seen (c d : Channel) := (hs.setWeigh .one c).setWeigh .two d
  exact (seen _ _).putStir b (((seen _ _).unit b).tacho pulses)

theorem windowStart : s.windowStart.MotorsSafe := by
  have recorded : State.MotorsSafe { s with arbiter := s.arbiter.record s.nextAccount } := hs
  exact ((recorded.handResults .one _).handResults .two _).raiseIf _ _

theorem handPosition (p : Nat) : (s.handPosition p).MotorsSafe := (hs.setHeat .one _).setHeat .two _

theorem zeroCross (since : Nat) : (s.zeroCross since).MotorsSafe := by
  have timed (x : Arbiter) : State.MotorsSafe { s with arbiter := x } := hs
  unfold State.zeroCross
  split
  · simp only [State.halfCycle]
    split
    · exact iteInduction (fun _ => (timed _).windowStart.handPosition 0) fun _ => (timed _).handPosition _
    · exact (timed _).windowStart.handPosition 0
  · exact iteInduction (fun _ => hs) fun _ => hs

theorem mainsLoss : s.mainsLoss.MotorsSafe := by
  have lost : State.MotorsSafe { s with arbiter := s.arbiter.lose } := hs
  exact (((lost.unitsLoseMains .one).unitsLoseMains .two).addPause .one _).addPause .two _

theorem gapExpiry : s.gapExpiry.MotorsSafe := by
  unfold State.gapExpiry State.gapRunOut
  split
  · exact hs
  · split
    · exact hs
    · exact iteInduction (fun _ => hs.mainsLoss) fun _ => hs

theorem pageDone (acked : Bool) : (s.pageDone acked).MotorsSafe := by
  unfold State.pageDone
  split
  · exact hs
  · split
    · exact iteInduction (fun _ => hs) fun _ => hs
    · exact hs

theorem pageTimeout : s.pageTimeout.MotorsSafe := by
  unfold State.pageTimeout
  split <;> exact hs

theorem tick : s.tick.MotorsSafe := iteInduction (fun _ => hs) fun _ => ⟨hs.1.tick, hs.2.tick⟩

/-- Every event leaves both motors safe. -/
theorem event {i : Instr} {f : State → State} (effect : eventOf i = some f) : (f s).MotorsSafe := by
  cases i with
  | loadCellConversion b sample => cases effect; exact hs.loadCell b _
  | holdOffExpiry b => cases effect; exact hs.setWeigh b _
  | temperatureConversion b code => cases effect; exact hs.temperature b _
  | relaySettleExpiry b => cases effect; exact hs.setHeat b _
  | configSettleExpiry b => cases effect; exact hs.setHeat b _
  | tachoMeasurement b pulses => cases effect; exact hs.tacho b pulses
  | standstillTimerExpiry b => cases effect; exact hs.putStir b (hs.unit b).standstillExpiry
  | stallTimerExpiry b => cases effect; exact hs.stallExpiry b
  | lockTimerExpiry b => cases effect; exact hs.lockExpiry b
  | rampStep b => cases effect; exact hs.putStir b (hs.unit b).rampStep
  | intervalPhaseChange b => cases effect; exact hs.putStir b (hs.unit b).phaseChange
  | switchLevelChange b sw level => cases effect; exact hs.setStir b ((hs.unit b).levelChange sw level)
  | lidChange b level => cases effect; exact hs.lidChange b level
  | confirmSwitchChange b level => cases effect; exact hs.confirmChange b level
  | switchFirstReading b sw level => cases effect; exact hs.setStir b ((hs.unit b).firstReading sw level)
  | zeroCrossArrival since => cases effect; exact hs.zeroCross since
  | gapTimerExpiry => cases effect; exact hs.gapExpiry
  | timeExpiry b => cases effect; exact hs.timeExpiry b
  | holdLimitExpiry b => cases effect; exact hs.holdExpiry b
  | endPendingCompletion b => cases effect; exact hs.endCompletion b
  | autoloadComplete r => cases effect; exact hs.endAutoload r
  | eepromPageWriteDone acked => cases effect; exact hs.pageDone acked
  | eepromPageTimeout => cases effect; exact hs.pageTimeout
  | portReady p => cases effect; exact hs
  | nop | getStatus | readPage | getNotices | ackNotice | setNotice | setThreshold | resetPort | openRecipe | writeStep
  | sealRecipe | discardRecipe | unloadRecipe | listRecipes | start | manual | pause | resume | stop | skipStep | answer | adjust
  | tare | clearFault | setBowlConfig | calibrateZero | calibrateSpan | abortCalibration | saveCalibration | setPowerCap
  | setArbitration | badFrame | unknownRequest | emptyTransfer | powerOn | resetPinAssert | resetPinRelease => cases effect

end State.MotorsSafe

/-- Each way in which a step changes the state keeps both motors safe. -/
theorem keptByParts_motorsSafe : KeptByParts State.MotorsSafe where
  port _ _ _ hs := hs
  restart _ _ := fun _ => ⟨StirUnit.safe_initial, StirUnit.safe_initial⟩
  owner _ h hs := hs.owner h
  event _ effect hs := hs.event effect
  queue _ _ hs := hs
  tick _ hs := hs.tick

/-- Settles O57: every order and every change of lid or lock ends in a formation, which leaves the motor safe. A ramp step stays
between setpoint and target; a first reading and a lock that times out find the motor within its limits already. -/
theorem everyStepKeepsMotorsSafe : Obligations.EveryStepKeepsMotorsSafe :=
  fun _ _ hs h => keptByParts_motorsSafe.step hs h

end Sys2Proof.Machine

namespace Sys2Proof.Machine

open Sys2Proof

/-! ## Ramp steps, the standstill and the interval phase (R107, R110 to R112) -/

@[simp] theorem State.setStir_self (s : State) (b : BowlId) : s.setStir b (s.bowl b).stir = s := s.setBowl_self b

/-- A unit operation that meets no limit changes the unit only. -/
theorem State.putStir_unlimited (s : State) (b : BowlId) (u : StirUnit) : s.putStir b (u, false) = s.setStir b u := rfl

/-- A unit at standstill that drives in direction `d` with no reversal in flight (R107, R112). -/
structure StirUnit.Reversed (u : StirUnit) (d : Direction) : Prop where
  standstill : u.standstill = .reached
  drive : u.drive = d
  pendingDir : u.pendingDir = none
  reversalHold : u.reversalHold = false

namespace StirUnit

variable {u : StirUnit} {d : Direction}

/-- A formation begins no reversal, and at standstill none is left to complete. -/
theorem Reversed.form (h : u.Reversed d) : u.form.1.Reversed d := by
  refine u.form_preserves (fun v => v.Reversed d) (fun v hv => ?_) (fun v hv => ?_) (fun v hv => ?_) (fun v hv _ => ?_) h
  all_goals obtain ⟨standstill, drive, pendingDir, reversalHold⟩ := hv
  · exact ⟨by simpa, by simpa, by simpa, by simpa⟩
  · exact ⟨standstill, by simpa [completeReversal, pendingDir], rfl, rfl⟩
  · exact ⟨standstill, drive, pendingDir, reversalHold⟩
  · exact ⟨by simpa, by simpa, by simpa, by simpa⟩

theorem Reversed.tryRelease (h : u.Reversed d) : u.tryRelease.1.Reversed d := by
  unfold StirUnit.tryRelease
  split
  · exact form (u := u.release) ⟨h.standstill, h.drive, h.pendingDir, h.reversalHold⟩
  · exact h

/-- The standstill timer's expiry with the setpoint at 0 completes a reversal in flight (R112). -/
theorem standstillExpiry_reversed {left : Nat} (timing : u.standstill = .timing left) (still : u.setpoint = 0)
    (pending : u.pendingDir = some d) : u.standstillExpiry.1.Reversed d := by
  have completed : StirUnit.Reversed (StirUnit.completeReversal { u with standstill := .reached }) d :=
    ⟨rfl, by simp [completeReversal, pending], rfl, rfl⟩
  have done : StirUnit.reversalDone { u with standstill := .reached } = true := by simp [reversalDone, pending, still]
  simp only [standstillExpiry, timing, andThen, tryReversal, done, if_true]
  exact completed.form.tryRelease

/-- A ramp step that completes no reversal and passes no release test moves the setpoint only (R111). -/
theorem rampStep_plain (reversing : { u with setpoint := rampToward u.setpoint u.target, rampMs := 0 }.reversalDone = false)
    (held : { u with setpoint := rampToward u.setpoint u.target, rampMs := 0 }.releaseTest = false) :
    u.rampStep = ({ u with setpoint := rampToward u.setpoint u.target, rampMs := 0 }, false) := by
  simp [rampStep, andThen, tryReversal, StirUnit.tryRelease, reversing, held]

theorem phaseChange_interval {speed : Nat} {dir : Direction} {times : Nat × Nat}
    (order : u.order = .stir speed dir (some times)) :
    u.phaseChange = StirUnit.form { u with phaseOn := !u.phaseOn, phaseTimer := 0, phaseMs := 0 } := by
  simp only [phaseChange, order]

theorem phaseChange_continuous {speed : Nat} {dir : Direction} (order : u.order = .stir speed dir none) :
    u.phaseChange = (u, false) := by
  simp only [phaseChange, order]

end StirUnit

/-- Settles O36. -/
theorem motorTimersMoveSetpointAndDirection : Obligations.MotorTimersMoveSetpointAndDirection := by
  refine ⟨fun b s released => ?_, fun b s released => ⟨fun left d timing still pending => ?_, fun speed dir times order => ?_,
    fun speed dir order => ?_⟩⟩
  · intro u moved reversing held
    have next : exec (.rampStep b) s = .next (s.putStir b u.rampStep) :=
      exec_event (fun s => s.putStir b (s.bowl b).stir.rampStep) rfl released
    rw [next, StirUnit.rampStep_plain reversing held]
    rfl
  · have reversed := StirUnit.standstillExpiry_reversed timing still pending
    refine ⟨_, exec_event (fun s => s.putStir b (s.bowl b).stir.standstillExpiry) rfl released, ?_⟩
    rw [State.bowl_putStir]
    exact ⟨reversed.standstill, reversed.drive, reversed.pendingDir, reversed.reversalHold⟩
  · refine ⟨_, exec_event (fun s => s.putStir b (s.bowl b).stir.phaseChange) rfl released, ?_⟩
    rw [State.bowl_putStir, StirUnit.phaseChange_interval order]
    exact ⟨StirUnit.form_phaseOn _, StirUnit.form_phaseTimer _, StirUnit.form_order _⟩
  · rw [exec_event (fun s => s.putStir b (s.bowl b).stir.phaseChange) rfl released,
      StirUnit.phaseChange_continuous order, State.putStir_unlimited, State.setStir_self]

end Sys2Proof.Machine

namespace Sys2Proof.Machine

open Sys2Proof

/-! ## The switch inputs (R108) -/

/-- Settles O38. -/
theorem switchInputsFiltered : Obligations.SwitchInputsFiltered := by
  intro b level s released
  have levelChange (sw : SwitchId) : exec (.switchLevelChange b sw level) s =
      .next (s.setStir b ((s.bowl b).stir.setSwitch sw (((s.bowl b).stir.switch sw).levelChange level))) :=
    exec_event (fun s => s.setStir b ((s.bowl b).stir.setSwitch sw (((s.bowl b).stir.switch sw).levelChange level))) rfl
      released
  have firstReading (sw : SwitchId) (unread : ((s.bowl b).stir.switch sw).firstRead = false) :
      exec (.switchFirstReading b sw level) s =
        .next (s.setStir b ((s.bowl b).stir.setSwitch sw (switchRead level))) := by
    rw [exec_event (fun s => s.setStir b
      ((s.bowl b).stir.setSwitch sw (((s.bowl b).stir.switch sw).firstReading level))) rfl released]
    simp only [SwitchInput.firstReading, unread]
    rfl
  exact ⟨levelChange .lid, levelChange .confirm, firstReading .lid, firstReading .confirm⟩

end Sys2Proof.Machine

namespace Sys2Proof.Machine

open Sys2Proof

/-! ## The lock through a formation (R111, R113, R114) -/

namespace StirUnit

/-- What follows the first passes of a formation: the release test, and then the engagement of a RELEASED lock (R113, R114). -/
def settleLock (v : StirUnit) : StirUnit :=
  let w := (v.formIf v.releaseTest release).1
  (w.formIf w.engages engage).1

theorem form_eq_settleLock (u : StirUnit) :
    u.form.1 = (u.formPass.1.formIf u.formPass.1.reversalDone completeReversal).1.settleLock := by
  unfold form settleLock
  rfl

/-- A pass of the formation changes target, setpoint and stall timer only. -/
theorem formPass_rest (u : StirUnit) :
    { u.formPass.1 with target := u.target, setpoint := u.setpoint, stall := u.stall } = u := by
  cases u
  simp

/-- The lock speed does not depend on what a pass of the formation changes (R109). -/
theorem formPass_lockSpeed (u : StirUnit) : u.formPass.1.lockSpeed = u.lockSpeed :=
  (congrArg lockSpeed u.formPass_rest :)

/-- The release test that released a lock still holds of what the release leaves. -/
theorem releaseTest_of_released {v : StirUnit} (tested : v.releaseTest = true) :
    releaseTest { v.release.formPass.1 with lock := v.lock } = true := by
  have speed : lockSpeed { v.release.formPass.1 with lock := v.lock } = v.lockSpeed := v.release.formPass_lockSpeed
  have setpoint : v.release.formPass.1.setpoint ≤ v.setpoint := formPass_setpoint_le _
  unfold releaseTest at tested ⊢
  rw [speed]
  simp only [Bool.and_eq_true, Bool.or_eq_true, decide_eq_true_eq, formPass_measured, release_measured, formPass_standstill,
    release_standstill] at tested ⊢
  obtain ⟨unreleased, ⟨slow, setpoint_low, measured_low⟩ | ⟨off, still⟩⟩ := tested
  · exact ⟨unreleased, .inl ⟨slow, setpoint.trans setpoint_low, measured_low⟩⟩
  · exact ⟨unreleased, .inr ⟨Nat.le_zero.mp (off ▸ setpoint), still⟩⟩

/-- What an engagement makes of the lock depends on the confirm switch only (R113). -/
theorem engage_congr {u v : StirUnit} (confirm : v.confirm = u.confirm) :
    v.engage.lock = u.engage.lock ∧ v.engage.lockTimer = u.engage.lockTimer := by
  unfold engage
  rw [confirm]
  split <;> exact ⟨rfl, rfl⟩

/-- A lock that is not RELEASED settles as it was, or RELEASED where the release test held, or engaged anew. -/
theorem settleLock_cases {v : StirUnit} (unreleased : v.lock ≠ .released) :
    v.settleLock = v ∨
      (v.settleLock.lock = .released ∧ v.settleLock.lockTimer = none ∧
        releaseTest { v.settleLock with lock := v.lock } = true) ∨
      (v.settleLock.lock = v.engage.lock ∧ v.settleLock.lockTimer = v.engage.lockTimer) := by
  cases tested : v.releaseTest with
  | false =>
    have kept : v.engages = false := by simp [engages, unreleased]
    exact .inl (by simp [settleLock, formIf, tested, kept])
  | true =>
    cases engages : v.release.formPass.1.engages with
    | false =>
      have settled : v.settleLock = v.release.formPass.1 := by simp [settleLock, formIf, tested, engages]
      rw [settled]
      exact .inr (.inl ⟨formPass_lock _, formPass_lockTimer _, releaseTest_of_released tested⟩)
    | true =>
      have settled : v.settleLock = v.release.formPass.1.engage.formPass.1 := by
        simp [settleLock, formIf, tested, engages]
      rw [settled, formPass_lock, formPass_lockTimer]
      exact .inr (.inr (engage_congr (by simp)))

/-- A formation leaves a lock that is not RELEASED as it was, releases it where the release test holds, or engages it anew. -/
theorem form_lock_cases {u : StirUnit} (unreleased : u.lock ≠ .released) :
    (u.form.1.lock = u.lock ∧ u.form.1.lockTimer = u.lockTimer) ∨
      (u.form.1.lock = .released ∧ u.form.1.lockTimer = none ∧ releaseTest { u.form.1 with lock := u.lock } = true) ∨
      (u.form.1.lock = u.engage.lock ∧ u.form.1.lockTimer = u.engage.lockTimer) := by
  rw [form_eq_settleLock]
  have keeps {α : Type} (f : StirUnit → α) (pass : ∀ v : StirUnit, f v.formPass.1 = f v)
      (reversal : ∀ v : StirUnit, f v.completeReversal = f v) :
      f (u.formPass.1.formIf u.formPass.1.reversalDone completeReversal).1 = f u :=
    (formIf_keeps _ _ _ f pass (reversal _)).trans (pass u)
  have lock := keeps StirUnit.lock (by simp) (by simp)
  have timer := keeps StirUnit.lockTimer (by simp) (by simp)
  have confirm := keeps StirUnit.confirm (by simp) (by simp)
  generalize (u.formPass.1.formIf u.formPass.1.reversalDone completeReversal).1 = v at lock timer confirm
  rw [← lock] at unreleased ⊢
  rcases settleLock_cases unreleased with settled | released | ⟨engaged, started⟩
  · exact .inl ⟨congrArg StirUnit.lock settled, (congrArg StirUnit.lockTimer settled).trans timer⟩
  · exact .inr (.inl released)
  · rw [engaged, started]
    exact .inr (.inr (engage_congr confirm))

/-- A formation with the lock not CONFIRMED leaves the setpoint at 1,200 rpm or below (R111). -/
theorem form_setpoint_unconfirmed {u : StirUnit} (unconfirmed : u.lock ≠ .confirmed) : u.form.1.setpoint ≤ 1200 := by
  refine u.form_of_pass (fun v => v.setpoint ≤ 1200) (fun v hv => v.formPass_setpoint_le.trans hv) (fun _ hv => hv)
    (fun _ hv => hv) (fun _ hv _ => by simpa using hv) ?_
  simp only [formPass, cuts, unconfirmed, if_false]
  split
  · rw [cutTo_setpoint]
    omega
  · rw [cutTo_setpoint]
    omega

section ConfirmSwitch

variable {u : StirUnit}

theorem confirmChanged_confirms (engaging : u.lock = .engaging) :
    u.confirmChanged .closed =
      StirUnit.form { u with confirm := switchRead .closed, lock := .confirmed, lockTimer := none } := by
  unfold confirmChanged
  dsimp only
  rw [engaging]

theorem confirmChanged_reopens (confirmed : u.lock = .confirmed) :
    u.confirmChanged .opened =
      StirUnit.form { u with confirm := switchRead .opened, lock := .engaging, lockTimer := some 500 } := by
  unfold confirmChanged
  dsimp only
  rw [confirmed]

theorem confirmChanged_released (released : u.lock = .released) (level : SwitchLevel) :
    u.confirmChanged level = ({ u with confirm := switchRead level }, false) := by
  unfold confirmChanged
  dsimp only
  rw [released]

end ConfirmSwitch

end StirUnit

/-- Settles O40: a lock in force leaves the formation as it came, engaged anew by the switch as it stands, or RELEASED where the
release test held. -/
theorem confirmSwitchMovesLock : Obligations.ConfirmSwitchMovesLock := by
  intro b s released
  have next (level : SwitchLevel) (change : level ≠ (s.bowl b).stir.confirm.level) :
      exec (.confirmSwitchChange b level) s = .next (s.putStir b ((s.bowl b).stir.confirmChanged level)) :=
    (exec_event (fun s => s.confirmChange b level) rfl released).trans (congrArg _ (if_neg change))
  refine ⟨fun engaging opened => ?_, fun confirmed closed => ?_, fun level unlocked change => ?_⟩
  · refine ⟨by rw [next _ (by simp [opened]), StirUnit.confirmChanged_confirms engaging]; rfl, ?_⟩
    rcases StirUnit.form_lock_cases
      (u := { (s.bowl b).stir with confirm := ⟨.closed, none, true⟩, lock := .confirmed, lockTimer := none }) (by simp) with
      ⟨lock, timer⟩ | ⟨lock, timer, tested⟩ | ⟨lock, timer⟩
    · exact ⟨.inl lock, timer⟩
    · exact ⟨.inr ⟨lock, tested⟩, timer⟩
    · exact ⟨.inl lock, timer⟩
  · refine ⟨by rw [next _ (by simp [closed]), StirUnit.confirmChanged_reopens confirmed]; rfl, ?_,
      StirUnit.form_setpoint_unconfirmed (by simp)⟩
    rcases StirUnit.form_lock_cases
      (u := { (s.bowl b).stir with confirm := ⟨.opened, none, true⟩, lock := .engaging, lockTimer := some 500 }) (by simp) with
      kept | unlocked | engaged
    · exact .inl kept
    · exact .inr unlocked
    · exact .inl engaged
  · rw [next level change, StirUnit.confirmChanged_released unlocked]
    rfl

end Sys2Proof.Machine

namespace Sys2Proof.Machine

open Sys2Proof

/-! ## The motor grants and their ceilings (R119, R129, R130) -/

section MotorGrants

variable {budget d1 d2 : Nat}

theorem motorGrants_fit (fit : d1 + d2 ≤ budget) : motorGrants budget d1 d2 = ⟨d1, d2⟩ := if_pos fit

theorem motorGrants_oneFirst (short : budget < d1 + d2) (smaller : d1 ≤ d2) :
    motorGrants budget d1 d2 = ⟨min d1 (budget / 2), min d2 (budget - min d1 (budget / 2))⟩ := by
  rw [motorGrants, if_neg (by omega), if_pos smaller]

theorem motorGrants_twoFirst (short : budget < d1 + d2) (smaller : d2 < d1) :
    motorGrants budget d1 d2 = ⟨min d1 (budget - min d2 (budget / 2)), min d2 (budget / 2)⟩ := by
  rw [motorGrants, if_neg (by omega), if_neg (by omega)]

/-- What a budget grants the two motors: both demands, or the smaller first, motor 1 at equal demands (R129). -/
theorem motorGrants_cases (budget d1 d2 : Nat) :
    (d1 + d2 ≤ budget ∧ motorGrants budget d1 d2 = ⟨d1, d2⟩) ∨
    (budget < d1 + d2 ∧ d1 ≤ d2 ∧
      motorGrants budget d1 d2 = ⟨min d1 (budget / 2), min d2 (budget - min d1 (budget / 2))⟩) ∨
    (budget < d1 + d2 ∧ d2 < d1 ∧
      motorGrants budget d1 d2 = ⟨min d1 (budget - min d2 (budget / 2)), min d2 (budget / 2)⟩) := by
  rcases le_or_gt (d1 + d2) budget with fit | short
  · exact .inl ⟨fit, motorGrants_fit fit⟩
  · rcases le_or_gt d1 d2 with one | two
    · exact .inr (.inl ⟨short, one, motorGrants_oneFirst short one⟩)
    · exact .inr (.inr ⟨short, two, motorGrants_twoFirst short two⟩)

theorem motorGrants_sum_le (budget d1 d2 : Nat) : (motorGrants budget d1 d2).one + (motorGrants budget d1 d2).two ≤ budget := by
  rcases motorGrants_cases budget d1 d2 with ⟨fit, grants⟩ | ⟨-, -, grants⟩ | ⟨-, -, grants⟩ <;> simp only [grants] <;> omega

theorem motorGrants_get_le (budget : Nat) (d : PerBowl Nat) (b : BowlId) : (motorGrants budget d.one d.two).get b ≤ d.get b := by
  rcases motorGrants_cases budget d.one d.two with ⟨-, grants⟩ | ⟨-, -, grants⟩ | ⟨-, -, grants⟩ <;> rw [grants] <;>
    cases b <;> simp only [PerBowl.get] <;> omega

/-- A demand of motor 1 that is the smaller and at most half the budget is met (R129). -/
theorem motorGrants_one_met (half : d1 ≤ budget / 2) (smaller : d1 ≤ d2) : (motorGrants budget d1 d2).one = d1 := by
  rcases motorGrants_cases budget d1 d2 with ⟨-, grants⟩ | ⟨-, -, grants⟩ | ⟨-, larger, -⟩
  · rw [grants]
  · rw [grants]
    exact min_eq_left half
  · omega

/-- A demand of motor 2 that is no larger and at most half the budget is met: equal ones of that size both fit (R129). -/
theorem motorGrants_two_met (half : d2 ≤ budget / 2) (smaller : d2 ≤ d1) : (motorGrants budget d1 d2).two = d2 := by
  rcases motorGrants_cases budget d1 d2 with ⟨-, grants⟩ | ⟨short, larger, -⟩ | ⟨-, -, grants⟩
  · rw [grants]
  · omega
  · rw [grants]
    exact min_eq_left half

/-- Equal demands above half the budget share it, motor 1 getting the half rounded down (R129). -/
theorem motorGrants_equal (above : budget / 2 < d1) : motorGrants budget d1 d1 = ⟨budget / 2, budget - budget / 2⟩ := by
  rw [motorGrants_oneFirst (by omega) le_rfl, min_eq_right above.le, min_eq_right (by omega)]

/-- A short motor has at least the half of the budget, rounded down (R129). -/
theorem motorGrants_short_half (budget d1 d2 : Nat) :
    ((motorGrants budget d1 d2).one < d1 → budget / 2 ≤ (motorGrants budget d1 d2).one) ∧
      ((motorGrants budget d1 d2).two < d2 → budget / 2 ≤ (motorGrants budget d1 d2).two) := by
  rcases motorGrants_cases budget d1 d2 with ⟨-, grants⟩ | ⟨-, -, grants⟩ | ⟨-, -, grants⟩ <;> simp only [grants] <;> omega

end MotorGrants

section Account

variable (sequence cap : Nat) (mode : ArbMode) (pointer : BowlId) (dm : PerBowl Nat) (dh : PerBowl HeaterDemand)

theorem accountOf_motors (b : BowlId) :
    (accountOf sequence cap mode pointer dm dh).motors.get b =
      let g := (motorGrants (cap * 20) dm.one dm.two).get b
      ⟨dm.get b, g, ceilingFor (dm.get b) g⟩ := by
  cases b <;> rfl

theorem accountOf_motorShort (b : BowlId) :
    (accountOf sequence cap mode pointer dm dh).motorShort.get b =
      decide ((motorGrants (cap * 20) dm.one dm.two).get b < dm.get b) := by
  cases b <;> rfl

end Account

/-- Settles O41, by the three cases of the grants. -/
theorem motorsServedSmallerFirst : Obligations.MotorsServedSmallerFirst := by
  refine ⟨fun budget d1 d2 => ⟨motorGrants_fit, fun short smaller => ?_, fun short smaller => ?_, motorGrants_sum_le _ _ _,
    fun half smaller => ?_, fun half smaller => ?_, fun equal above => ?_, fun cap low => ?_⟩,
    fun sequence cap mode p dm dh => ⟨rfl, fun b => ⟨?_, ?_⟩⟩⟩
  · rw [motorGrants_oneFirst short smaller]
    exact ⟨rfl, rfl⟩
  · rw [motorGrants_twoFirst short smaller]
    exact ⟨rfl, rfl⟩
  · exact motorGrants_one_met (min_eq_left smaller ▸ half) smaller
  · exact motorGrants_two_met (min_eq_right smaller ▸ half) smaller
  · subst equal
    rw [motorGrants_equal above]
    exact ⟨rfl, rfl⟩
  · omega
  · rw [accountOf_motors]
  · rw [accountOf_motorShort, decide_eq_true_iff]

/-! ### The ceiling (R119, R130) -/

section Ceiling

variable {demand grant : Nat}

theorem ceilingFor_full (full : demand ≤ grant) : ceilingFor demand grant = none := if_pos full

/-- A short motor's ceiling depends on its grant only (R130). -/
theorem ceilingFor_short (short : grant < demand) :
    ceilingFor demand grant =
      if grant < 300 then some 0 else if grant < 500 then some 600 else if grant < 900 then some 3000 else some 6000 :=
  if_neg (by omega)

/-- The bands of R130: the four ranges of a grant below its demand, each with its ceiling. -/
theorem ceilingFor_cases (short : grant < demand) :
    (grant < 300 ∧ ceilingFor demand grant = some 0) ∨
    (300 ≤ grant ∧ grant < 500 ∧ ceilingFor demand grant = some 600) ∨
    (500 ≤ grant ∧ grant < 900 ∧ ceilingFor demand grant = some 3000) ∨
    (900 ≤ grant ∧ ceilingFor demand grant = some 6000) := by
  rw [ceilingFor_short short]
  split_ifs <;> simp <;> omega

/-- The bands of R119: a speed lies in one of them, with its window demand. -/
theorem motorDemand_cases (v : Nat) :
    (v = 0 ∧ motorDemand v = 0) ∨
    (0 < v ∧ v ≤ 600 ∧ motorDemand v = 300) ∨
    (600 < v ∧ v ≤ 3000 ∧ motorDemand v = 500) ∨
    (3000 < v ∧ v ≤ 6000 ∧ motorDemand v = 900) ∨
    (6000 < v ∧ motorDemand v = 1600) := by
  unfold motorDemand
  split_ifs <;> omega

/-- The speed a short motor may have is carried by its grant and below the speed asked for, and no higher speed is carried
(R119, R130). -/
theorem ceilingFor_highest {v : Nat} (short : grant < motorDemand v) :
    ∃ c, ceilingFor (motorDemand v) grant = some c ∧ motorDemand c ≤ grant ∧ c < v ∧
      ∀ c', motorDemand c' ≤ grant → c' ≤ c := by
  have band := motorDemand_cases
  have asked := band v
  rcases ceilingFor_cases short with ⟨upper, ceiling⟩ | ⟨lower, upper, ceiling⟩ | ⟨lower, upper, ceiling⟩ | ⟨lower, ceiling⟩
  · exact ⟨0, ceiling, Nat.zero_le _, by omega, fun c' carried => by have := band c'; omega⟩
  · exact ⟨600, ceiling, lower, by omega, fun c' carried => by have := band c'; omega⟩
  · exact ⟨3000, ceiling, lower, by omega, fun c' carried => by have := band c'; omega⟩
  · exact ⟨6000, ceiling, lower, by omega, fun c' carried => by have := band c'; omega⟩

end Ceiling

/-- Settles O42. -/
theorem ceilingIsHighestBandCarried : Obligations.CeilingIsHighestBandCarried := by
  refine ⟨fun _ _ => ceilingFor_full, fun demand grant short => ?_, fun v grant short => ?_, fun budget d1 d2 enough => ?_⟩
  · rcases ceilingFor_cases short with ⟨upper, ceiling⟩ | ⟨lower, upper, ceiling⟩ | ⟨lower, upper, ceiling⟩ | ⟨lower, ceiling⟩ <;>
      rw [ceiling] <;> simp <;> omega
  · obtain ⟨c, ceiling, carried, below, highest⟩ := ceilingFor_highest short
    exact ⟨c, ceiling, carried, below, fun c' _ => highest c'⟩
  · obtain ⟨one, two⟩ := motorGrants_short_half budget d1 d2
    omega

end Sys2Proof.Machine

namespace Sys2Proof.Machine

open Sys2Proof

/-! ## The heater grants (R131, R132) -/

namespace HeaterDemand

variable {d : HeaterDemand} {left : Nat}

theorem serve_full (fits : d.power ≤ left) : d.serve left = d.posted := if_pos fits

/-- A demand that does not fit is granted what fits (R131). -/
theorem serve_part (short : left < d.power) : d.serve left = left / d.rating.getD 0 := if_neg (by omega)

theorem serve_le_posted (d : HeaterDemand) (left : Nat) : d.serve left ≤ d.posted := by
  rcases le_or_gt d.power left with fits | short
  · exact (serve_full fits).le
  · rw [serve_part short]
    exact Nat.div_le_of_le_mul (Nat.mul_comm d.posted _ ▸ short.le)

/-- A grant costs at most the amount it is served from (R131). -/
theorem cost_serve_le (d : HeaterDemand) (left : Nat) : d.cost (d.serve left) ≤ left := by
  rcases le_or_gt d.power left with fits | short
  · rw [serve_full fits]
    exact fits
  · rw [serve_part short]
    exact Nat.div_mul_le_self left _

end HeaterDemand

section HeaterGrants

variable (first : BowlId) (r : Nat) (d : PerBowl HeaterDemand)

theorem heaterGrants_first : (heaterGrants first r d).get first = (d.get first).serve r := by
  cases first <;> rfl

/-- The heater served second is served from what the first leaves (R131). -/
theorem heaterGrants_second :
    (heaterGrants first r d).get (otherBowl first) =
      (d.get (otherBowl first)).serve (r - (d.get first).cost ((heaterGrants first r d).get first)) := by
  cases first <;> rfl

theorem heaterGrants_le_posted (b : BowlId) : (heaterGrants first r d).get b ≤ (d.get b).posted := by
  rcases eq_or_otherBowl first b with rfl | rfl
  · rw [heaterGrants_first]
    exact HeaterDemand.serve_le_posted _ _
  · rw [heaterGrants_second]
    exact HeaterDemand.serve_le_posted _ _

/-- The two heaters together cost at most the remainder (R131). -/
theorem heaterGrants_cost_le :
    d.one.cost (heaterGrants first r d).one + d.two.cost (heaterGrants first r d).two ≤ r := by
  have one := (d.get first).cost_serve_le r
  have two := (d.get (otherBowl first)).cost_serve_le (r - (d.get first).cost ((heaterGrants first r d).get first))
  rw [← heaterGrants_first] at one
  rw [← heaterGrants_second] at two
  cases first <;> simp only [PerBowl.get, otherBowl] at one two <;> omega

end HeaterGrants

/-- In FIT mode the other heater is served first exactly where the pointer's does not fit and the other does (R132). -/
theorem servedFirst_fit_iff (p : BowlId) (r : Nat) (d : PerBowl HeaterDemand) :
    servedFirst .fit p r d = otherBowl p ↔ r < (d.get p).power ∧ (d.get (otherBowl p)).power ≤ r := by
  simp [servedFirst]

/-! ### The heaters in the account of a window -/

section AccountHeaters

variable (sequence cap : Nat) (mode : ArbMode) (pointer : BowlId) (dm : PerBowl Nat) (dh : PerBowl HeaterDemand)

theorem accountOf_heaters (b : BowlId) :
    let a := accountOf sequence cap mode pointer dm dh
    let d := dh.get b
    let g := (heaterGrants a.servedFirst a.remainder dh).get b
    a.heaters.get b = ⟨d.stage, d.rating, d.posted, d.power, g, d.cost g⟩ := by
  cases b <;> rfl

theorem accountOf_heaterShort (b : BowlId) :
    let a := accountOf sequence cap mode pointer dm dh
    a.heaterShort.get b = decide ((a.heaters.get b).grant < (dh.get b).posted) := by
  cases b <;> rfl

/-- The heater served first is served from the remainder (R131). -/
theorem accountOf_grant_first :
    let a := accountOf sequence cap mode pointer dm dh
    (a.heaters.get a.servedFirst).grant = (dh.get a.servedFirst).serve a.remainder := by
  dsimp only
  rw [accountOf_heaters]
  exact heaterGrants_first _ _ _

/-- The heater served second is served from what the first leaves (R131). -/
theorem accountOf_grant_second :
    let a := accountOf sequence cap mode pointer dm dh
    (a.heaters.get (otherBowl a.servedFirst)).grant =
      (dh.get (otherBowl a.servedFirst)).serve (a.remainder - (a.heaters.get a.servedFirst).grantPower) := by
  dsimp only
  rw [accountOf_heaters, accountOf_heaters]
  exact heaterGrants_second _ _ _

/-- Motor grants, the power of the heater grants and the left-over make up the budget (R138). -/
theorem accountOf_balance :
    let a := accountOf sequence cap mode pointer dm dh
    a.motors.one.grant + a.motors.two.grant + a.heaters.one.grantPower + a.heaters.two.grantPower + a.leftOver =
      a.budget := by
  intro a
  have motors := motorGrants_sum_le (cap * 20) dm.one dm.two
  have heaters := heaterGrants_cost_le a.servedFirst a.remainder dh
  simp only [a, accountOf] at heaters ⊢
  omega

/-- No grant of a window is above its demand (R129, R131). -/
theorem accountOf_grants_le (b : BowlId) :
    let a := accountOf sequence cap mode pointer dm dh
    (a.motors.get b).grant ≤ dm.get b ∧ (a.heaters.get b).grant ≤ (dh.get b).posted ∧
      (a.heaters.get b).grantPower = (a.heaters.get b).grant * (dh.get b).rating.getD 0 := by
  dsimp only
  rw [accountOf_motors, accountOf_heaters]
  exact ⟨motorGrants_get_le _ dm b, heaterGrants_le_posted _ _ dh b, rfl⟩

end AccountHeaters

/-- Settles O43: the balance and the bounds of the grants, the amounts served, and the two modes. -/
theorem windowGrantsByBudgetAndMode : Obligations.WindowGrantsByBudgetAndMode := by
  refine ⟨fun sequence cap mode p dm dh => ?_, fun sequence cap mode p dm dh => ?_, fun sequence cap p dm dh => ?_⟩
  · exact ⟨rfl, accountOf_balance .., fun b => accountOf_grants_le (b := b) ..⟩
  · refine ⟨accountOf_grant_first .., accountOf_grant_second .., fun b => ?_⟩
    rw [accountOf_heaterShort, decide_eq_true_iff]
  · refine ⟨rfl, ?_, rfl, servedFirst_fit_iff p _ dh, fun fits => ?_⟩
    · cases p <;> rfl
    · rw [accountOf_grant_first, HeaterDemand.serve_full fits]

end Sys2Proof.Machine

namespace Sys2Proof.Machine

open Sys2Proof

/-! ## Restoration of the mains (R125, R126) -/

theorem Arbiter.countAfter_eq (x : Arbiter) (since : Nat) :
    x.countAfter since =
      if 0 < x.restoration ∧ 7000 ≤ x.spacing since ∧ x.spacing since ≤ 12000 then x.restoration + 1 else 1 := by
  unfold Arbiter.countAfter
  split_ifs <;> omega

section Restoration

variable {s : State} {since : Nat}

theorem State.restorationCross_counts (few : s.arbiter.countAfter since < 10) :
    s.restorationCross since =
      { s with arbiter := { s.arbiter.restartGap with restoration := s.arbiter.countAfter since } } :=
  if_neg (by omega)

/-- The tenth well-spaced zero-cross (R126). -/
theorem State.restorationCross_restores (tenth : 10 ≤ s.arbiter.countAfter since) :
    s.restorationCross since =
      State.raise { s with arbiter := { s.arbiter.restartGap with present := true, restoration := 0 } } .mains :=
  if_pos tenth

end Restoration

/-- Settles O45. -/
theorem restorationCount : Obligations.RestorationCount := by
  intro since s released absent
  have next : exec (.zeroCrossArrival since) s = .next (s.restorationCross since) :=
    (exec_event (fun s => s.zeroCross since) rfl released).trans (congrArg _ (if_neg (by simp [absent])))
  dsimp only
  rw [next, ← s.arbiter.countAfter_eq since]
  refine ⟨fun few => ?_, fun tenth => ?_⟩
  · rw [State.restorationCross_counts few]
    rfl
  · rw [State.restorationCross_restores tenth]
    exact ⟨_, rfl, rfl, rfl, rfl, rfl, rfl, State.raise_flag _ .mains⟩

/-! ## SET_POWER_CAP and SET_ARBITRATION (R135, R145) -/

section Settings

variable {s : State}

theorem answerSetPowerCap_busy (inFlight : s.image.autoload = .inFlight) (c1 c0 : Byte) :
    answerSetPowerCap [c1, c0] s = refuse s .busy := by
  simp [answerSetPowerCap, State.autoloading, inFlight]

theorem answerSetPowerCap_taken (ended : s.image.autoload ≠ .inFlight) (lowest : 50 ≤ s.arbiter.rating) (c1 c0 : Byte) :
    let cap := 256 * c1.toNat + c0.toNat
    let v := max 50 (min s.arbiter.rating cap)
    answerSetPowerCap [c1, c0] s =
      ⟨{ s with arbiter := { s.arbiter with pendingCap := some v } }, if v = cap then .accepted else .clamped, u16 v⟩ := by
  simp [answerSetPowerCap, State.autoloading, ended, beNat_pair, clampNat_eq 50 s.arbiter.rating _ lowest]

theorem answerSetArbitration_mode {pm : Byte} {mode : ArbMode} (coded : arbModeOf pm.toNat = some mode) :
    answerSetArbitration [pm] s =
      ⟨{ s with arbiter := { s.arbiter with pendingMode := some mode, modeByRequest := true } }, .ok, []⟩ := by
  simp only [answerSetArbitration, coded]

theorem arbModeOf_none {n : Nat} (unknown : 2 ≤ n) : arbModeOf n = none := by
  match n with
  | _ + 2 => rfl

theorem answerSetArbitration_unknown {pm : Byte} (unknown : 2 ≤ pm.toNat) :
    answerSetArbitration [pm] s = refuse s .badParam := by
  simp only [answerSetArbitration, arbModeOf_none unknown]

end Settings

/-- Settles O47. -/
theorem capAndModeBecomePending : Obligations.CapAndModeBecomePending := by
  intro x s ht lowest
  have mode {pm : Byte} {m : ArbMode} (coded : arbModeOf pm.toNat = some m) :=
    exec_answered (i := .setArbitration x [pm]) rfl ht (answerSetArbitration_mode coded) rfl
  exact ⟨fun c1 c0 => ⟨fun inFlight => exec_refused rfl ht (answerSetPowerCap_busy inFlight c1 c0),
      fun ended => exec_answered rfl ht (answerSetPowerCap_taken ended lowest c1 c0) rfl⟩,
    mode rfl, mode rfl, fun pm unknown => exec_refused rfl ht (answerSetArbitration_unknown unknown)⟩

end Sys2Proof.Machine

namespace Sys2Proof.Machine

open Sys2Proof

/-! ## The bytes an image holds (R142) -/

/-- The image holds these bytes from address `b` on. -/
def ImageHolds (im : Vector Byte 128) (b : Nat) (bytes : List Byte) : Prop :=
  ∀ i, (h : i < bytes.length) → imageByte im (b + i) = bytes[i].toNat

theorem toList_imageOfBytes {bytes : List Byte} (length : bytes.length = 128) : (imageOfBytes bytes).toList = bytes := by
  refine List.ext_getElem (by simp [length]) fun i _ h => ?_
  simp [imageOfBytes, List.getElem?_eq_getElem h]

theorem imageOfBytes_holds {bytes : List Byte} (length : bytes.length = 128) : ImageHolds (imageOfBytes bytes) 0 bytes := by
  intro i h
  rw [imageByte, toList_imageOfBytes length, Nat.zero_add, List.getD_eq_getElem _ _ h]

section Holds

variable {im : Vector Byte 128} {b n : Nat} {xs ys : List Byte}

/-- Bytes that stand one part after another are held part by part. -/
theorem imageHolds_append : ImageHolds im b (xs ++ ys) ↔ ImageHolds im b xs ∧ ImageHolds im (b + xs.length) ys := by
  constructor
  · refine fun h => ⟨fun i hi => ?_, fun i hi => ?_⟩
    · rw [h i (by simp; omega), List.getElem_append_left hi]
    · rw [Nat.add_assoc, h (xs.length + i) (by simp; omega), List.getElem_append_right (Nat.le_add_right _ _)]
      simp
  · rintro ⟨first, second⟩ i hi
    rcases lt_or_ge i xs.length with inside | beyond
    · rw [first i inside, List.getElem_append_left inside]
    · rw [List.getElem_append_right beyond, ← second (i - xs.length) (by simp at hi; omega), Nat.add_assoc,
        Nat.add_sub_cancel' beyond]

theorem ImageHolds.byte_mod (h : ImageHolds im b (u8 n)) : imageByte im b = n % 256 := h 0 Nat.one_pos

theorem ImageHolds.pair_mod (h : ImageHolds im b (u16 n)) : imagePair im b = n % 65536 := by
  have parts : ImageHolds im b (u8 (n / 256) ++ u8 n) := h
  obtain ⟨high, low⟩ := imageHolds_append.mp parts
  rw [length_u8] at low
  rw [imagePair, high.byte_mod, low.byte_mod]
  omega

theorem ImageHolds.triple_mod (h : ImageHolds im b (u24 n)) : imageTriple im b = n % 16777216 := by
  have parts : ImageHolds im b (u8 (n / 65536) ++ u16 n) := h
  obtain ⟨high, low⟩ := imageHolds_append.mp parts
  rw [length_u8] at low
  rw [imageTriple, high.byte_mod, low.pair_mod]
  omega

theorem ImageHolds.byte (h : ImageHolds im b (u8 n)) (fits : n < 256) : imageByte im b = n :=
  h.byte_mod.trans (Nat.mod_eq_of_lt fits)

theorem ImageHolds.pair (h : ImageHolds im b (u16 n)) (fits : n < 65536) : imagePair im b = n :=
  h.pair_mod.trans (Nat.mod_eq_of_lt fits)

theorem ImageHolds.triple (h : ImageHolds im b (u24 n)) (fits : n < 16777216) : imageTriple im b = n :=
  h.triple_mod.trans (Nat.mod_eq_of_lt fits)

end Holds

/-- Two's complement in three bytes reads back (R142). -/
theorem signedOf_ofInt {z : Int} (lower : -8388608 ≤ z) (upper : z ≤ 8388607) : signedOf 24 (BitVec.ofInt 24 z).toNat = z := by
  rw [signedOf, BitVec.ofNat_toNat, BitVec.setWidth_eq, BitVec.toInt_ofInt]
  exact Int.bmod_eq_of_le (by omega) (by omega)

theorem stageModeOf_code (m : StageMode) : stageModeOf m.code = some m := by cases m <;> rfl

theorem arbModeOf_code (m : ArbMode) : arbModeOf m.code = some m := by cases m <;> rfl

theorem StageMode.code_le (m : StageMode) : m.code ≤ 2 := by cases m <;> decide

theorem ArbMode.code_le (m : ArbMode) : m.code ≤ 1 := by cases m <;> decide

/-! ## A block and an image read back (R142, R143) -/

/-- Calibration values inside their encodings (R142, R143). -/
structure CalValues.Fits (v : CalValues) : Prop where
  trim : v.trim < 256
  zero : -8388608 ≤ v.zero ∧ v.zero ≤ 8388607
  gain : v.gain < 16777216
  k : 1 ≤ v.k ∧ v.k ≤ 256
  band : 1 ≤ v.band ∧ v.band ≤ 255
  kp : v.kp < 256
  ki : v.ki < 256
  mainRating : 10 ≤ v.mainRating ∧ v.mainRating ≤ 200
  keepRating : 10 ≤ v.keepRating ∧ v.keepRating ≤ 200

theorem CalValues.length_block (v : CalValues) : v.block.length = 14 := rfl

/-- A block of values inside their encodings is read back, and passes R143. -/
theorem ImageHolds.block {im : Vector Byte 128} {b : Nat} {v : CalValues} (h : ImageHolds im b v.block) (fits : v.Fits) :
    blockValues im b = v ∧ blockGood im b = true := by
  simp only [CalValues.block, imageHolds_append, List.length_append, length_u8, length_u24, length_s24, Nat.reduceAdd] at h
  obtain ⟨⟨⟨⟨⟨⟨⟨⟨⟨trim, zero⟩, gain⟩, k⟩, band⟩, kp⟩, ki⟩, main⟩, keep⟩, mode⟩ := h
  have code := v.mode.code_le
  obtain ⟨fits_trim, ⟨zero_lower, zero_upper⟩, fits_gain, ⟨k_lower, k_upper⟩, ⟨band_lower, band_upper⟩, fits_kp, fits_ki,
    ⟨main_lower, main_upper⟩, ⟨keep_lower, keep_upper⟩⟩ := fits
  replace trim := trim.byte fits_trim
  replace zero := zero.triple (BitVec.isLt _)
  replace gain := gain.triple fits_gain
  replace k := k.byte (by omega)
  replace band := band.byte (by omega)
  replace kp := kp.byte fits_kp
  replace ki := ki.byte fits_ki
  replace main := main.byte (by omega)
  replace keep := keep.byte (by omega)
  replace mode := mode.byte (by omega)
  constructor
  · simp only [blockValues, trim, zero, gain, k, band, kp, ki, main, keep, mode, stageModeOf_code, Option.getD_some,
      signedOf_ofInt zero_lower zero_upper, Nat.sub_add_cancel k_lower]
  · simp [blockGood, *]

section BuiltImage

variable (one two : CalValues) (rating cap : Nat) (mode : ArbMode)

/-- The 126 bytes of an image before its checksum (R142). -/
def imageBody : List Byte :=
  [0x5A, 0xC2] ++ u8 1 ++ u8 0 ++ one.block ++ two.block ++ u16 rating ++ u16 cap ++ u8 mode.code ++ List.replicate 89 0

theorem buildImage_eq :
    buildImage one two rating cap mode =
      imageOfBytes (imageBody one two rating cap mode ++ u16 (natSum (imageBody one two rating cap mode) % 65536)) := rfl

theorem length_imageBody : (imageBody one two rating cap mode).length = 126 := by
  simp [imageBody, CalValues.block]

end BuiltImage

/-- The parts of an image and where they stand (R142). -/
structure ImageLayout (im : Vector Byte 128) (one two : CalValues) (rating cap : Nat) (mode : ArbMode) : Prop where
  magic : ImageHolds im 0 [0x5A, 0xC2]
  version : ImageHolds im 2 (u8 1)
  one : ImageHolds im 4 one.block
  two : ImageHolds im 18 two.block
  rating : ImageHolds im 32 (u16 rating)
  cap : ImageHolds im 34 (u16 cap)
  mode : ImageHolds im 36 (u8 mode.code)
  checksum : imagePair im 126 = natSum (im.toList.take 126) % 65536

theorem buildImage_layout (one two : CalValues) (rating cap : Nat) (mode : ArbMode) :
    ImageLayout (buildImage one two rating cap mode) one two rating cap mode := by
  rw [buildImage_eq]
  have length_body := length_imageBody one two rating cap mode
  generalize sum : natSum (imageBody one two rating cap mode) % 65536 = n
  have length : (imageBody one two rating cap mode ++ u16 n).length = 128 := by simp [length_body]
  obtain ⟨body, checksum⟩ := imageHolds_append.mp (imageOfBytes_holds length)
  rw [length_body] at checksum
  have checksum_read := checksum.pair (sum ▸ Nat.mod_lt _ (by decide))
  simp only [imageBody, imageHolds_append, List.length_append, List.length_cons, List.length_nil, length_u8, length_u16,
    CalValues.length_block, Nat.reduceAdd] at body
  obtain ⟨⟨⟨⟨⟨⟨⟨⟨magic, version⟩, -⟩, one⟩, two⟩, rating⟩, cap⟩, mode⟩, -⟩ := body
  refine ⟨magic, version, one, two, rating, cap, mode, ?_⟩
  rw [toList_imageOfBytes length, List.take_left' length_body, sum, checksum_read]

/-- An image laid out from values inside their encodings is good and reads back (R142, R143). -/
theorem ImageLayout.readsBack {im : Vector Byte 128} {one two : CalValues} {rating cap : Nat} {mode : ArbMode}
    (h : ImageLayout im one two rating cap mode) (fits_one : one.Fits) (fits_two : two.Fits) (lowest : 50 ≤ rating)
    (highest : rating ≤ 360) (fits_cap : cap < 65536) :
    imageGood im = true ∧ blockValues im 4 = one ∧ blockValues im 18 = two ∧ imagePair im 32 = rating ∧
      imagePair im 34 = cap ∧ arbModeOf (imageByte im 36) = some mode := by
  obtain ⟨values_one, good_one⟩ := h.one.block fits_one
  obtain ⟨values_two, good_two⟩ := h.two.block fits_two
  have rating_read := h.rating.pair (by omega)
  have mode_read := h.mode.byte (by have := mode.code_le; omega)
  refine ⟨?_, values_one, values_two, rating_read, h.cap.pair fits_cap, by rw [mode_read, arbModeOf_code]⟩
  have magic0 : imageByte im 0 = 0x5A := h.magic 0 (by decide)
  have magic1 : imageByte im 1 = 0xC2 := h.magic 1 (by decide)
  have version := h.version.byte (by decide)
  simp [imageGood, magic0, magic1, version, h.checksum, good_one, good_two, rating_read, lowest, highest, mode_read, mode.code_le]

/-- Settles O49: a built image is laid out, and a snapshot is an image built. -/
theorem savedImageReadsBack : Obligations.SavedImageReadsBack := by
  unfold Obligations.SavedImageReadsBack
  intro fits
  have asFits (v : CalValues) : fits v → v.Fits :=
    fun ⟨trim, zero, zero', gain, k, k', band, band', kp, ki, main, main', keep, keep'⟩ =>
      ⟨trim, ⟨zero, zero'⟩, gain, ⟨k, k'⟩, ⟨band, band'⟩, kp, ki, ⟨main, main'⟩, ⟨keep, keep'⟩⟩
  have built (one two : CalValues) (rating cap : Nat) (mode : ArbMode) (fits_one : fits one) (fits_two : fits two) :=
    (buildImage_layout one two rating cap mode).readsBack (asFits one fits_one) (asFits two fits_two)
  exact ⟨built, fun s fits_one fits_two => built _ _ _ _ _ fits_one fits_two⟩

end Sys2Proof.Machine

namespace Sys2Proof.Machine

open Sys2Proof

/-! ## SAVE_CALIBRATION (R153) -/

section SaveRequest

variable {s : State}

theorem answerSaveCalibration_busy (inFlight : s.image.autoload = .inFlight ∨ s.image.save.isSome) :
    answerSaveCalibration [] s = refuse s .busy := by
  simp [answerSaveCalibration, State.autoloading, inFlight]

theorem answerSaveCalibration_taken (ended : s.image.autoload ≠ .inFlight) (idle : s.image.save = none) :
    answerSaveCalibration [] s =
      ⟨{ s with image := { s.image with save := some ⟨s.snapshot, 0, 10⟩ } }, .accepted, []⟩ := by
  simp [answerSaveCalibration, State.autoloading, ended, idle]

end SaveRequest

/-! ## The pages of a save (R154) -/

/-- The end of a save concerns the stored image and the notices only. -/
theorem State.endSave_effect (s : State) (o : SaveOutcome) :
    (s.endSave o).image = { s.image with save := none, lastSave := some o } ∧ (s.endSave o).bowls = s.bowls ∧
      (s.endSave o).arbiter = s.arbiter ∧ (s.endSave o).store = s.store ∧ (s.endSave o).ports = s.ports ∧
      ∀ p, ((s.endSave o).notices.get p).flags.getLsbD Cause.storeDone.number = true :=
  ⟨rfl, rfl, rfl, rfl, rfl, State.raise_flag _ .storeDone⟩

section Pages

variable {s : State} {j : SaveJob} (saving : s.image.save = some j)
include saving

theorem State.pageDone_next (more : j.page < 7) :
    s.pageDone true = { s with image := { s.image with save := some { j with page := j.page + 1, left := 10 } } } := by
  simp only [State.pageDone, saving, if_true, if_pos more]

theorem State.pageDone_last (last : j.page = 7) : s.pageDone true = s.endSave .ok := by
  simp [State.pageDone, saving, last]

theorem State.pageDone_unacknowledged : s.pageDone false = s.endSave .writeFailed := by
  simp [State.pageDone, saving]

theorem State.pageTimeout_saving : s.pageTimeout = s.endSave .writeFailed := by
  simp only [State.pageTimeout, saving]

end Pages

/-- Settles O53: the request by its two answers, and each page event by what it leaves of the save in flight. -/
theorem saveWritesEightPages : Obligations.SaveWritesEightPages := by
  intro s released
  have pageDone (acked : Bool) : exec (.eepromPageWriteDone acked) s = .next (s.pageDone acked) :=
    exec_event (fun s => s.pageDone acked) rfl released
  have pageTimeout : exec .eepromPageTimeout s = .next s.pageTimeout := exec_event State.pageTimeout rfl released
  refine ⟨fun x ht => ⟨fun inFlight => ?busy, fun ended idle => ?taken⟩,
    fun j saving => ⟨fun more => ?nextPage, fun last => ?lastPage, ?unacknowledged, ?late⟩⟩
  case busy => exact exec_refused rfl ht (answerSaveCalibration_busy inFlight)
  case taken => exact exec_answered rfl ht (answerSaveCalibration_taken ended idle) rfl
  case nextPage => rw [pageDone, State.pageDone_next saving more]
  case lastPage => exact ⟨_, (pageDone true).trans (congrArg _ (State.pageDone_last saving last)), s.endSave_effect .ok⟩
  case unacknowledged =>
    exact ⟨_, (pageDone false).trans (congrArg _ (State.pageDone_unacknowledged saving)), s.endSave_effect .writeFailed⟩
  case late => exact ⟨_, pageTimeout.trans (congrArg _ (State.pageTimeout_saving saving)), s.endSave_effect .writeFailed⟩

end Sys2Proof.Machine

namespace Sys2Proof.Machine

open Sys2Proof

/-! ## The bytes of a request frame (R159, R160) -/

/-- A byte sum over one byte more at the end. -/
theorem byteSum_append_singleton (bytes : List Byte) (b : Byte) : byteSum (bytes ++ [b]) = byteSum bytes + b := by
  simp [byteSum]

/-- A body and its checksum sum to a multiple of 256 (R159). -/
theorem byteSum_append_checksum (body : List Byte) : byteSum (body ++ [checksum body]) = 0 := by
  rw [byteSum_append_singleton, checksum]
  bv_omega

theorem byteSum_requestFrame (code tag : Byte) (params : List Byte) : byteSum (requestFrame code tag params) = 0 :=
  byteSum_append_checksum _

section RequestFrame

variable {code tag : Byte} {params : List Byte}

/-- A request frame that fits passes every check and gives its code, tag and parameters, whatever bytes come after it (R160). -/
theorem frameOf_requestFrame (fits : params.length ≤ 35) (rest : List Byte) {count : Nat}
    (counted : params.length + 5 ≤ count) :
    frameOf (requestFrame code tag params ++ rest) count = some (code, tag, params) := by
  have frame : (requestFrame code tag params ++ rest).take (params.length + 5) = requestFrame code tag params :=
    List.take_left' (requestFrame_length code tag params)
  have start : (requestFrame code tag params ++ rest).getD 0 0 = 0xA5 := rfl
  have length : ((requestFrame code tag params ++ rest).getD 1 0).toNat = params.length + 5 :=
    Nat.mod_eq_of_lt (by omega)
  have checked : ¬(count < 2 ∨ params.length + 5 < 5 ∨ 40 < params.length + 5) := by omega
  have read : ((requestFrame code tag params ++ rest).drop 4).take params.length = params := by
    simp [requestFrame, u8]
  have codeByte : (requestFrame code tag params ++ rest).getD 2 0 = code := rfl
  have tagByte : (requestFrame code tag params ++ rest).getD 3 0 = tag := rfl
  simp only [frameOf, start, length, codeByte, tagByte, frame, read, byteSum_requestFrame, if_neg checked,
    if_neg (Nat.not_lt.mpr counted), Nat.add_sub_cancel, ne_eq, not_true_eq_false, if_false]

/-- The 40 bytes a port keeps of a request and its fill bytes hold the whole frame (R157, R160). -/
theorem frameOf_received (fits : params.length ≤ 35) (fill : List Byte) :
    frameOf ((requestFrame code tag params ++ fill).take 40) (requestFrame code tag params ++ fill).length =
      some (code, tag, params) := by
  have short : (requestFrame code tag params).length ≤ 40 := by rw [requestFrame_length]; omega
  rw [List.take_append, List.take_of_length_le short]
  exact frameOf_requestFrame fits _ (by simp)

end RequestFrame

/-! ## The port commands, by what their transfer carries -/

/-- What a command is at its port: a request of the table, taken for its owner; a request with an unknown code; a bad frame; an
empty transfer; or no transfer. -/
inductive PortCommand (i : Instr) : Prop
  | request (code : Byte) (x : Xfer) (params : List Byte) (owner : State → Reply)
      (parts : i.requestParts = some (code, x, params)) (fits : i.wf = paramsFit params)
      (named : requestOf code x params = some i) (owned : ownerOf code.toNat x.port params = some owner)
      (exec_eq : ∀ s, exec i s = takeRequest code x params owner s)
  | unknown (x : Xfer) (code : Byte) (params : List Byte) (named : i = .unknownRequest x code params)
  | bad (p : PortId) (bytes : List Byte) (named : i = .badFrame p bytes)
  | empty (p : PortId) (bits : Fin 8) (named : i = .emptyTransfer p bits)
  | other (unsent : encodeTransfer i = none) (unparted : i.requestParts = none)

/-- Every command is one of these at its port. -/
theorem portCommand (i : Instr) : PortCommand i := by
  cases i with
  | nop x ps | getStatus x ps | readPage x ps | getNotices x ps | ackNotice x ps | setNotice x ps | setThreshold x ps
  | resetPort x ps | openRecipe x ps | writeStep x ps | sealRecipe x ps | discardRecipe x ps | unloadRecipe x ps
  | listRecipes x ps | start x ps | manual x ps | pause x ps | resume x ps | stop x ps | skipStep x ps | answer x ps
  | adjust x ps | tare x ps | clearFault x ps | setBowlConfig x ps | calibrateZero x ps | calibrateSpan x ps
  | abortCalibration x ps | saveCalibration x ps | setPowerCap x ps | setArbitration x ps =>
    exact .request _ x ps _ rfl rfl rfl rfl fun _ => rfl
  | unknownRequest x code ps => exact .unknown x code ps rfl
  | badFrame p bytes => exact .bad p bytes rfl
  | emptyTransfer p bits => exact .empty p bits rfl
  | powerOn | resetPinAssert | resetPinRelease | autoloadComplete | loadCellConversion | holdOffExpiry | temperatureConversion
  | relaySettleExpiry | configSettleExpiry | tachoMeasurement | standstillTimerExpiry | stallTimerExpiry | lockTimerExpiry
  | rampStep | intervalPhaseChange | switchLevelChange | lidChange | confirmSwitchChange | switchFirstReading
  | zeroCrossArrival | gapTimerExpiry | timeExpiry | holdLimitExpiry | endPendingCompletion | eepromPageWriteDone
  | eepromPageTimeout | portReady => exact .other rfl rfl

/-- A request command is sent as its frame and its fill bytes (R159). -/
theorem encodeTransfer_of_parts {i : Instr} {code : Byte} {x : Xfer} {params : List Byte}
    (parts : i.requestParts = some (code, x, params)) :
    encodeTransfer i = some (x.port, requestFrame code x.tag params ++ List.replicate x.fill 0) := by
  unfold encodeTransfer
  split
  · cases parts
  · cases parts
  · rw [parts]
    rfl

/-- A well-formed unknown request fits its frame, and its code has no owner. -/
theorem wf_unknownRequest {x : Xfer} {code : Byte} {params : List Byte} :
    (Instr.unknownRequest x code params).wf = true ↔
      params.length ≤ 35 ∧ ownerOf code.toNat x.port params = none := by
  simp [Instr.wf, paramsFit]

/-- Bytes that make a bad frame: at least one, and no good frame among those kept (R160). -/
theorem isBadFrame_iff {bytes : List Byte} :
    isBadFrame bytes = true ↔ bytes ≠ [] ∧ frameOf (bytes.take 40) bytes.length = none := by
  simp [isBadFrame]

/-! ## Requests answered by their owners (R157, R158, R161, R162) -/

/-- Settles O5: a request of the table is taken for its owner, and a well-formed unknown request has none. -/
theorem requestAnsweredByItsOwner : Obligations.RequestAnsweredByItsOwner := by
  intro i code x params owner s wellFormed parts owned takes
  cases portCommand i with
  | request code' x' params' owner' parts' fits named owned' exec_eq =>
    cases parts'.symm.trans parts
    cases owned'.symm.trans owned
    exact (exec_eq s).trans (takeRequest_next _ _ _ _ _ takes)
  | unknown x' code' params' named =>
    subst named
    cases parts
    cases (wf_unknownRequest.mp wellFormed).2.symm.trans owned
  | bad p bytes named => subst named; cases parts
  | empty p bits named => subst named; cases parts
  | other unsent unparted => cases unparted.symm.trans parts

/-! ## Bytes that no owner takes (R160, R161) -/

/-- Whole bytes at an empty port that takes them: what the frame checks make of them is the state and the pending response. -/
theorem rawTransfer_next {s : State} {p : PortId} {bytes : List Byte} (takes : s.takes p) (empty : (s.ports.get p).empty)
    (some_byte : bytes ≠ []) :
    whileReleased (fun s => s.transfer p bytes (takeFrame p)) s =
      .next ((takeFrame p (bytes.take 40) bytes.length s).1.setPort p
        ((s.ports.get p).after bytes.length (takeFrame p (bytes.take 40) bytes.length s).2)) := by
  obtain ⟨released, ready⟩ := takes
  obtain ⟨rx, count⟩ := Port.clockAll_rx (s.ports.get p) bytes empty
  rw [whileReleased_released _ _ released, State.transfer_eq _ _ _ _ ready some_byte, rx, count]

theorem takeFrame_bad {rx : List Byte} {count : Nat} (bad : frameOf rx count = none) (p : PortId) (s : State) :
    takeFrame p rx count s = (s, ⟨0, .badFrame, []⟩) := by
  simp only [takeFrame, bad, Response.badFrameResponse]

theorem takeFrame_unknown {rx : List Byte} {count : Nat} {code tag : Byte} {params : List Byte} {p : PortId}
    (good : frameOf rx count = some (code, tag, params)) (unowned : ownerOf code.toNat p params = none) (s : State) :
    takeFrame p rx count s = (s, ⟨tag, .unknownRequest, []⟩) := by
  simp only [takeFrame, good, unowned]

theorem execBadFrame_next {p : PortId} {bytes : List Byte} {s : State} (bad : isBadFrame bytes = true) (takes : s.takes p)
    (empty : (s.ports.get p).empty) :
    exec (.badFrame p bytes) s = .next (s.setPort p ((s.ports.get p).after bytes.length ⟨0, .badFrame, []⟩)) := by
  obtain ⟨some_byte, fails⟩ := isBadFrame_iff.mp bad
  exact (rawTransfer_next takes empty some_byte).trans (by rw [takeFrame_bad fails])

theorem execUnknownRequest_next {x : Xfer} {code : Byte} {params : List Byte} {s : State}
    (wellFormed : (Instr.unknownRequest x code params).wf = true) (takes : s.takes x.port)
    (empty : (s.ports.get x.port).empty) :
    exec (.unknownRequest x code params) s = .next (s.answered x params .unknownRequest []) := by
  obtain ⟨fits, unowned⟩ := wf_unknownRequest.mp wellFormed
  have taken := rawTransfer_next takes empty (requestFrame_ne_nil code x.tag params (List.replicate x.fill 0))
  rw [takeFrame_unknown (frameOf_received fits _) unowned] at taken
  refine taken.trans ?_
  simp [State.answered]

/-- Settles O6, by what the frame checks make of each kind of bytes. -/
theorem badAndUnknownFramesAnswered : Obligations.BadAndUnknownFramesAnswered :=
  ⟨fun _ _ _ bad takes empty => execBadFrame_next bad takes empty,
    fun _ _ _ _ wellFormed takes empty => execUnknownRequest_next wellFormed takes empty⟩

/-! ## Empty and early transfers (R157, R171) -/

/-- A transfer of no whole byte releases an empty port with its pending response as it was. -/
theorem State.transfer_nil {s : State} {p : PortId} (ready : (s.ports.get p).ready = true) (empty : (s.ports.get p).empty)
    (take : List Byte → Nat → State → State × Response) :
    s.transfer p [] take = s.setPort p { s.ports.get p with ready := false, sent := [] } := by
  obtain ⟨rx, count⟩ := empty
  have counted : ((s.ports.get p).clockAll []).rxCount = 0 := count
  simp [State.transfer, ready, counted, Port.releaseEmpty, rx, count]

theorem execEmptyTransfer_next {p : PortId} {s : State} (bits : Fin 8) (takes : s.takes p) (empty : (s.ports.get p).empty) :
    exec (.emptyTransfer p bits) s = .next (s.setPort p { s.ports.get p with ready := false, sent := [] }) := by
  obtain ⟨released, ready⟩ := takes
  rw [exec, execEmptyTransfer, whileReleased_released _ _ released, State.transfer_nil ready empty]

/-- A transfer framed too early changes nothing, in reset or not. -/
theorem whileReleased_early {s : State} {p : PortId} (early : (s.ports.get p).ready = false) (bytes : List Byte)
    (take : List Byte → Nat → State → State × Response) :
    whileReleased (fun s => s.transfer p bytes take) s = .next s := by
  rw [whileReleased, State.transfer_early _ _ _ _ early, ite_self]

/-- Every command that sends bytes on a port is a transfer there. -/
theorem exec_transfer {i : Instr} {p : PortId} {bytes : List Byte} (sent : encodeTransfer i = some (p, bytes)) :
    ∃ take, ∀ s, exec i s = whileReleased (fun s => s.transfer p bytes take) s := by
  cases portCommand i with
  | request code x params owner parts fits named owned exec_eq =>
    cases (encodeTransfer_of_parts parts).symm.trans sent
    exact ⟨_, exec_eq⟩
  | unknown x code params named => subst named; cases sent; exact ⟨_, fun _ => rfl⟩
  | bad p' bytes' named => subst named; cases sent; exact ⟨_, fun _ => rfl⟩
  | empty p' bits named => subst named; cases sent; exact ⟨_, fun _ => rfl⟩
  | other unsent unparted => cases unsent.symm.trans sent

/-- Settles O7: a transfer of no whole byte, the readiness that follows it, and every transfer before that. -/
theorem emptyAndEarlyTransfersDeliverNothing : Obligations.EmptyAndEarlyTransfersDeliverNothing := by
  refine ⟨fun p bits s takes empty => ⟨execEmptyTransfer_next bits takes empty, fun u released => ?_⟩,
    fun i p bytes s sent _ early => ?_⟩
  · exact exec_event (fun u => u.setPort p { u.ports.get p with ready := true }) rfl released
  · obtain ⟨take, exec_eq⟩ := exec_transfer sent
    exact (exec_eq s).trans (whileReleased_early early bytes take)

/-! ## Reading a transfer back (R159 to R162) -/

/-- The bytes of a request that fits are read as its code names it, with the fill bytes after the frame counted. -/
theorem commandOfTransfer_request {code : Byte} {x : Xfer} {params : List Byte} (fits : params.length ≤ 35) :
    commandOfTransfer x.port (requestFrame code x.tag params ++ List.replicate x.fill 0) =
      (requestOf code x params).getD (.unknownRequest x code params) := by
  have some_byte := requestFrame_ne_nil code x.tag params (List.replicate x.fill 0)
  have fill : (requestFrame code x.tag params ++ List.replicate x.fill 0).length - (params.length + 5) = x.fill := by simp
  simp only [commandOfTransfer, List.isEmpty_iff, if_neg some_byte, frameOf_received fits, fill]

theorem commandOfTransfer_bad {p : PortId} {bytes : List Byte} (bad : isBadFrame bytes = true) :
    commandOfTransfer p bytes = .badFrame p bytes := by
  obtain ⟨some_byte, fails⟩ := isBadFrame_iff.mp bad
  simp only [commandOfTransfer, List.isEmpty_iff, if_neg some_byte, fails]

/-- Settles O8, by what the transfer carries. -/
theorem transferBytesReadBack : Obligations.TransferBytesReadBack := by
  intro i p bytes wellFormed no_part_byte sent
  cases portCommand i with
  | request code x params owner parts fits named owned exec_eq =>
    cases (encodeTransfer_of_parts parts).symm.trans sent
    have fits : params.length ≤ 35 := of_decide_eq_true (fits.symm.trans wellFormed)
    rw [commandOfTransfer_request fits, named]
    rfl
  | unknown x code params named =>
    subst named
    cases sent
    rw [commandOfTransfer_request (wf_unknownRequest.mp wellFormed).1]
    exact Laws.ReadBack.unknownRequest x code params code x params wellFormed rfl
  | bad p' bytes' named =>
    subst named
    cases sent
    exact commandOfTransfer_bad wellFormed
  | empty p' bits named =>
    subst named
    cases sent
    rw [no_part_byte p bits rfl]
    rfl
  | other unsent unparted => cases unsent.symm.trans sent

end Sys2Proof.Machine

namespace Sys2Proof.Machine

open Sys2Proof

/-! ## What keeps the queue of waiting commands (R161) -/

/-- The operations of one bowl keep the queue. -/
theorem BowlOps.pending {b : BowlId} {s t : State} (h : BowlOps b s t) : t.pending = s.pending := h.within.pending

/-- An answer that keeps the queue. -/
def Reply.KeepsQueue (s : State) (r : Reply) : Prop := r.state.pending = s.pending

theorem Reply.OfBowl.keepsQueue {r : Reply} {s : State} {params : List Byte} (h : r.OfBowl s params) : r.KeepsQueue s := by
  rcases h with unchanged | ⟨b, -, ops⟩
  · exact congrArg State.pending unchanged
  · exact ops.pending

theorem refuse_keepsQueue (s : State) (status : Status) : (refuse s status).KeepsQueue s := rfl

/-- A test that refuses keeps the queue where it holds. -/
theorem keepsQueue_refuseIf {s : State} {c : Prop} [Decidable c] {status : Status} {r : Reply} (h : ¬ c → r.KeepsQueue s) :
    (if c then refuse s status else r).KeepsQueue s :=
  iteInduction (fun _ => refuse_keepsQueue s status) h

/-- A request for a bowl whose answer keeps the queue. -/
theorem withBowl_keepsQueue {pb : Byte} {s : State} {f : BowlId → Reply} (h : ∀ b, (f b).KeepsQueue s) :
    (withBowl pb s f).KeepsQueue s := by
  unfold withBowl
  split
  · exact h _
  · exact refuse_keepsQueue _ _

/-! ### The owners' answers that operate no bowl -/

section Answers

variable (port : PortId) (params : List Byte) (s : State)

theorem answerNop_keepsQueue : (answerNop params s).KeepsQueue s := by
  unfold answerNop
  split <;> rfl

theorem answerGetStatus_keepsQueue : (answerGetStatus params s).KeepsQueue s := by
  unfold answerGetStatus
  split
  · exact withBowl_keepsQueue fun _ => rfl
  · rfl

theorem answerReadPage_keepsQueue : (answerReadPage params s).KeepsQueue s := by
  unfold answerReadPage
  split
  · refine withBowl_keepsQueue fun _ => ?_
    split <;> rfl
  · rfl

theorem answerGetNotices_keepsQueue : (answerGetNotices port params s).KeepsQueue s := by
  unfold answerGetNotices
  split <;> rfl

theorem answerAckNotice_keepsQueue : (answerAckNotice port params s).KeepsQueue s := by
  unfold answerAckNotice
  split
  · exact keepsQueue_refuseIf fun _ => rfl
  · rfl

theorem answerSetNotice_keepsQueue : (answerSetNotice port params s).KeepsQueue s := by
  unfold answerSetNotice
  split
  · exact keepsQueue_refuseIf fun _ => rfl
  · rfl

theorem answerSetThreshold_keepsQueue : (answerSetThreshold port params s).KeepsQueue s := by
  unfold answerSetThreshold
  split
  · exact keepsQueue_refuseIf fun _ => rfl
  · rfl

theorem answerResetPort_keepsQueue : (answerResetPort port params s).KeepsQueue s := by
  unfold answerResetPort
  split
  · exact (State.setStore_pending _ _).trans (State.setNotice_pending _ _ _)
  · rfl

theorem answerOpenRecipe_keepsQueue : (answerOpenRecipe port params s).KeepsQueue s := by
  unfold answerOpenRecipe
  split
  · refine keepsQueue_refuseIf fun _ => ?_
    split <;> rfl
  · rfl

theorem answerWriteStep_keepsQueue : (answerWriteStep port params s).KeepsQueue s := by
  unfold answerWriteStep
  split
  · refine keepsQueue_refuseIf fun _ => ?_
    split
    · exact keepsQueue_refuseIf fun _ => keepsQueue_refuseIf fun _ => iteInduction (fun _ => rfl) fun _ => rfl
    · rfl
    · rfl
  · rfl

theorem answerSealRecipe_keepsQueue : (answerSealRecipe port params s).KeepsQueue s := by
  unfold answerSealRecipe
  split
  · refine keepsQueue_refuseIf fun _ => ?_
    split
    · refine keepsQueue_refuseIf fun _ => ?_
      dsimp only
      split <;> rfl
    · rfl
    · rfl
  · rfl

theorem answerDiscardRecipe_keepsQueue : (answerDiscardRecipe port params s).KeepsQueue s := by
  unfold answerDiscardRecipe
  split
  · refine keepsQueue_refuseIf fun _ => ?_
    split
    · exact keepsQueue_refuseIf fun _ => rfl
    · rfl
    · rfl
  · rfl

theorem answerUnloadRecipe_keepsQueue : (answerUnloadRecipe params s).KeepsQueue s := by
  unfold answerUnloadRecipe
  split
  · refine keepsQueue_refuseIf fun _ => ?_
    split
    · exact keepsQueue_refuseIf fun _ => rfl
    · rfl
    · rfl
  · rfl

theorem answerListRecipes_keepsQueue : (answerListRecipes params s).KeepsQueue s := by
  unfold answerListRecipes
  split <;> rfl

theorem answerSaveCalibration_keepsQueue : (answerSaveCalibration params s).KeepsQueue s := by
  unfold answerSaveCalibration
  split
  · exact keepsQueue_refuseIf fun _ => rfl
  · rfl

theorem answerSetPowerCap_keepsQueue : (answerSetPowerCap params s).KeepsQueue s := by
  unfold answerSetPowerCap
  split
  · exact keepsQueue_refuseIf fun _ => rfl
  · rfl

theorem answerSetArbitration_keepsQueue : (answerSetArbitration params s).KeepsQueue s := by
  unfold answerSetArbitration
  split
  · split <;> rfl
  · rfl

end Answers

/-- Every answer of an owner keeps the queue. -/
theorem ownerOf_keepsQueue {code : Nat} {port : PortId} {params : List Byte} {owner : State → Reply}
    (owned : ownerOf code port params = some owner) (s : State) : (owner s).KeepsQueue s := by
  unfold ownerOf at owned
  split at owned <;> cases owned
  · exact answerNop_keepsQueue _ _
  · exact answerGetStatus_keepsQueue _ _
  · exact answerReadPage_keepsQueue _ _
  · exact answerGetNotices_keepsQueue _ _ _
  · exact answerAckNotice_keepsQueue _ _ _
  · exact answerSetNotice_keepsQueue _ _ _
  · exact answerSetThreshold_keepsQueue _ _ _
  · exact answerResetPort_keepsQueue _ _ _
  · exact answerOpenRecipe_keepsQueue _ _ _
  · exact answerWriteStep_keepsQueue _ _ _
  · exact answerSealRecipe_keepsQueue _ _ _
  · exact answerDiscardRecipe_keepsQueue _ _ _
  · exact answerUnloadRecipe_keepsQueue _ _
  · exact answerListRecipes_keepsQueue _ _
  · exact (answerStart_ofBowl _ _).keepsQueue
  · exact (answerManual_ofBowl _ _).keepsQueue
  · exact (answerPause_ofBowl _ _).keepsQueue
  · exact (answerResume_ofBowl _ _).keepsQueue
  · exact (answerStop_ofBowl _ _).keepsQueue
  · exact (answerSkipStep_ofBowl _ _).keepsQueue
  · exact (answerAnswer_ofBowl _ _).keepsQueue
  · exact (answerAdjust_ofBowl _ _).keepsQueue
  · exact (answerTare_ofBowl _ _).keepsQueue
  · exact (answerClearFault_ofBowl _ _).keepsQueue
  · exact (answerSetBowlConfig_ofBowl _ _).keepsQueue
  · exact (answerCalibrateZero_ofBowl _ _).keepsQueue
  · exact (answerCalibrateSpan_ofBowl _ _).keepsQueue
  · exact (answerAbortCalibration_ofBowl _ _).keepsQueue
  · exact answerSaveCalibration_keepsQueue _ _
  · exact answerSetPowerCap_keepsQueue _ _
  · exact answerSetArbitration_keepsQueue _ _

/-! ### The events of the part that belong to no one bowl -/

namespace State

variable (s : State)

theorem endAutoload_pending (r : AutoloadRead) : (s.endAutoload r).pending = s.pending := by
  unfold endAutoload
  split
  · split
    · rfl
    · split <;> rfl
  · rfl
  · rfl
  · rfl

theorem tacho_pending (b : BowlId) (pulses : Nat) : (s.tacho b pulses).pending = s.pending := by
  simp [tacho]

@[simp] theorem windowStart_pending : s.windowStart.pending = s.pending := by
  have handed (u : State) : ((u.handResults s.nextAccount .one).handResults s.nextAccount .two).pending = u.pending :=
    (BowlOps.handResults _ .two _).pending.trans (BowlOps.handResults u .one _).pending
  simp only [windowStart]
  split <;> exact handed _

@[simp] theorem handPosition_pending (p : Nat) : (s.handPosition p).pending = s.pending := rfl

theorem zeroCross_pending (since : Nat) : (s.zeroCross since).pending = s.pending := by
  unfold zeroCross
  split
  · simp only [halfCycle]
    split
    · split <;> simp
    · simp
  · simp only [restorationCross]
    split <;> rfl

theorem mainsLoss_pending : s.mainsLoss.pending = s.pending := by
  simp only [mainsLoss, raise_pending, (BowlOps.addPause _ _ _).pending, (BowlOps.unitsLoseMains _ _).pending]

theorem gapExpiry_pending : s.gapExpiry.pending = s.pending := by
  unfold gapExpiry
  split
  · rfl
  · unfold gapRunOut
    split
    · rfl
    · split
      · exact s.mainsLoss_pending
      · rfl

theorem pageDone_pending (acked : Bool) : (s.pageDone acked).pending = s.pending := by
  unfold pageDone
  split
  · rfl
  · split
    · split <;> rfl
    · rfl

theorem pageTimeout_pending : s.pageTimeout.pending = s.pending := by
  unfold pageTimeout
  split <;> rfl

end State

/-- Every event keeps the queue: one of a bowl as its operations do. -/
theorem event_pending {i : Instr} {f : State → State} (effect : eventOf i = some f) (s : State) :
    (f s).pending = s.pending := by
  cases own : ownBowl i with
  | some b => exact (BowlOps.event effect own s).pending
  | none =>
    cases i with
    | autoloadComplete r => cases effect; exact s.endAutoload_pending r
    | tachoMeasurement b pulses => cases effect; exact s.tacho_pending b pulses
    | zeroCrossArrival since => cases effect; exact s.zeroCross_pending since
    | gapTimerExpiry => cases effect; exact s.gapExpiry_pending
    | eepromPageWriteDone acked => cases effect; exact s.pageDone_pending acked
    | eepromPageTimeout => cases effect; exact s.pageTimeout_pending
    | portReady p => cases effect; rfl
    | loadCellConversion | holdOffExpiry | temperatureConversion | relaySettleExpiry | configSettleExpiry
    | standstillTimerExpiry | stallTimerExpiry | lockTimerExpiry | rampStep | intervalPhaseChange | switchLevelChange
    | lidChange | confirmSwitchChange | switchFirstReading | timeExpiry | holdLimitExpiry | endPendingCompletion => cases own
    | nop | getStatus | readPage | getNotices | ackNotice | setNotice | setThreshold | resetPort | openRecipe | writeStep
    | sealRecipe | discardRecipe | unloadRecipe | listRecipes | start | manual | pause | resume | stop | skipStep | answer
    | adjust | tare | clearFault | setBowlConfig | calibrateZero | calibrateSpan | abortCalibration | saveCalibration
    | setPowerCap | setArbitration | badFrame | unknownRequest | emptyTransfer | powerOn | resetPinAssert | resetPinRelease =>
      cases effect

/-! ### Every command -/

/-- A transfer keeps the queue where the taking of its bytes does. -/
theorem State.transfer_pending {s : State} {p : PortId} {bytes : List Byte}
    {take : List Byte → Nat → State → State × Response} (taken : ∀ rx n, (take rx n s).1.pending = s.pending) :
    (s.transfer p bytes take).pending = s.pending := by
  rcases s.transfer_cases p bytes take with ignored | ⟨q, empty⟩ | ⟨rx, n, q, delivered⟩
  · rw [ignored]
  · rw [empty, State.setPort_pending]
  · rw [delivered, State.setPort_pending, taken]

theorem takeFrame_pending (p : PortId) (rx : List Byte) (count : Nat) (s : State) :
    (takeFrame p rx count s).1.pending = s.pending := by
  rcases takeFrame_cases p rx count s with unchanged | ⟨code, params, owner, owned, answered⟩
  · rw [unchanged]
  · rw [answered]
    exact ownerOf_keepsQueue owned s

/-- An event answers a next state, and keeps the queue where its effect does. -/
theorem whileReleased_keepsQueue {f : State → State} {s : State} (kept : (f s).pending = s.pending) :
    ∃ t, whileReleased f s = .next t ∧ t.pending = s.pending :=
  ⟨_, rfl, keeps_of_whileReleased (P := fun t => t.pending = s.pending) kept rfl rfl⟩

/-- Settles O2, by what each command means. -/
theorem everyCommandCompletesAndKeepsQueue : Obligations.EveryCommandCompletesAndKeepsQueue := by
  intro c s
  cases meaning c with
  | request code x params owner parts owned exec_eq =>
    rw [exec_eq]
    exact whileReleased_keepsQueue (State.transfer_pending fun _ _ => ownerOf_keepsQueue owned s)
  | raw p bytes exec_eq =>
    rw [exec_eq]
    exact whileReleased_keepsQueue (State.transfer_pending fun rx n => takeFrame_pending p rx n s)
  | empty p exec_eq =>
    rw [exec_eq]
    exact whileReleased_keepsQueue (State.transfer_pending fun _ _ => rfl)
  | event f effect exec_eq =>
    rw [exec_eq]
    exact whileReleased_keepsQueue (event_pending effect s)
  | restart inReset named exec_eq => exact ⟨_, exec_eq s, rfl⟩
  | release named exec_eq =>
    exact ⟨_, exec_eq s, iteInduction (motive := fun t : State => t.pending = s.pending) (fun _ => rfl) fun _ => rfl⟩

end Sys2Proof.Machine

namespace Sys2Proof.Machine

open Sys2Proof

/-! ## The notice requests, the raisings and the attention line (R173, R174, R176, R177) -/

/-- The set of cause number `k` alone has its one bit at `k` (R172). -/
theorem getLsbD_ofNat_two_pow {k i : Nat} (hi : i < 15) : (BitVec.ofNat 15 (2 ^ k)).getLsbD i = decide (i = k) := by
  simp only [BitVec.getLsbD_ofNat, hi, decide_true, Bool.true_and, Nat.testBit_two_pow, eq_comm]

/-- SET_NOTICE gives the named cause its enable and keeps those of the others (R177). -/
theorem NoticePort.configure_enable (n : NoticePort) (k : Nat) (e : Bool) (p : Fin 4) (c : Fin 15) :
    (n.configure k e p).enables.getLsbD c.val = if c.val = k then e else n.enables.getLsbD c.val := by
  have mask := getLsbD_ofNat_two_pow (k := k) c.isLt
  cases e with
  | true =>
    simp only [NoticePort.configure, if_true, BitVec.getLsbD_or, mask]
    split <;> simp [*]
  | false =>
    simp only [NoticePort.configure, Bool.false_eq_true, if_false, BitVec.getLsbD_and, BitVec.getLsbD_not, c.isLt, mask]
    split <;> simp [*]

/-- SET_NOTICE gives the named cause its priority and keeps those of the others (R177). -/
theorem NoticePort.configure_priority (n : NoticePort) (k : Nat) (e : Bool) (p : Fin 4) (c : Fin 15) :
    (n.configure k e p).priority[c] = if c.val = k then p else n.priority[c] := by
  simp only [NoticePort.configure, Fin.getElem_fin, Vector.getElem_setIfInBounds, eq_comm]

section NoticeAnswers

variable {port : PortId} {s : State}

theorem answerAckNotice_badParam {c1 : Byte} (bit15 : 128 ≤ c1.toNat) (c0 : Byte) :
    answerAckNotice port [c1, c0] s = refuse s .badParam := by
  have beyond : 2 ^ 15 ≤ beNat [c1, c0] := by rw [beNat_pair]; omega
  exact if_pos beyond

theorem answerAckNotice_ok {c1 : Byte} (fifteen : c1.toNat < 128) (c0 : Byte) :
    answerAckNotice port [c1, c0] s =
      ⟨s.setNotice port ((s.notices.get port).acknowledge (256 * c1.toNat + c0.toNat)), .ok, []⟩ := by
  have low : c0.toNat < 256 := c0.isLt
  have within : ¬ 2 ^ 15 ≤ 256 * c1.toNat + c0.toNat := by omega
  simp only [answerAckNotice, beNat_pair, if_neg within]

theorem answerSetNotice_badParam {pc pe pp : Byte} (uncoded : 14 < pc.toNat ∨ 1 < pe.toNat ∨ 3 < pp.toNat) :
    answerSetNotice port [pc, pe, pp] s = refuse s .badParam :=
  if_pos uncoded

theorem answerSetNotice_ok {pc pe pp : Byte} (cause : pc.toNat ≤ 14) (enable : pe.toNat ≤ 1) (priority : pp.toNat ≤ 3) :
    answerSetNotice port [pc, pe, pp] s =
      ⟨s.setNotice port ((s.notices.get port).configure pc.toNat (decide (pe.toNat = 1)) (Fin.ofNat 4 pp.toNat)),
        .ok, []⟩ := by
  have coded : ¬ (14 < pc.toNat ∨ 1 < pe.toNat ∨ 3 < pp.toNat) := by omega
  have one : pe = 1 ↔ pe.toNat = 1 := BitVec.toNat_inj.symm
  simp only [answerSetNotice, if_neg coded, one]

theorem answerSetThreshold_badParam {pl : Byte} (uncoded : 3 < pl.toNat) :
    answerSetThreshold port [pl] s = refuse s .badParam :=
  if_pos uncoded

theorem answerSetThreshold_ok {pl : Byte} (coded : pl.toNat ≤ 3) :
    answerSetThreshold port [pl] s =
      ⟨s.setNotice port { s.notices.get port with threshold := Fin.ofNat 4 pl.toNat }, .ok, []⟩ :=
  if_neg (Nat.not_lt.mpr coded)

end NoticeAnswers

/-- A raising joins its cause to the flag set of each port, from which nothing leaves (R173). -/
theorem State.raise_getLsbD (s : State) (c : Cause) (p : PortId) {i : Nat} (hi : i < 15) :
    ((s.raise c).notices.get p).flags.getLsbD i = (decide (i = c.number) || (s.notices.get p).flags.getLsbD i) := by
  rw [State.raise_flags, BitVec.getLsbD_or, Cause.getLsbD_mask c i hi, Bool.or_comm]

theorem NoticePort.isDue_iff (n : NoticePort) (c : Fin 15) :
    n.isDue c = true ↔ n.flags.getLsbD c.val = true ∧ n.enables.getLsbD c.val = true ∧ n.threshold < n.priority[c] := by
  simp only [NoticePort.isDue, Bool.and_eq_true, decide_eq_true_eq, and_assoc]

/-- The attention line is asserted exactly while some cause is due (R174). -/
theorem NoticePort.attention_iff (n : NoticePort) : n.attention = true ↔ ∃ c, n.isDue c = true := by
  simp only [NoticePort.attention, List.any_eq_true, List.mem_finRange, true_and]

/-- Settles O54. -/
theorem noticesByPort : Obligations.NoticesByPort := by
  refine ⟨fun x s ht => ⟨fun c1 c0 => ⟨fun bit15 => ?_, fun fifteen => ?_⟩,
    fun pc pe pp => ⟨fun uncoded => ?_, fun cause enable priority =>
      ⟨_, exec_answered rfl ht (answerSetNotice_ok cause enable priority) rfl, rfl, rfl, fun c => ⟨?_, ?_⟩⟩⟩,
    fun pl => ⟨fun uncoded => ?_, fun coded => ?_⟩⟩,
    fun s c p i hi => s.raise_getLsbD c p hi, fun n => n.attention_iff.trans (exists_congr n.isDue_iff)⟩
  · exact exec_refused rfl ht (answerAckNotice_badParam bit15 c0)
  · exact exec_answered rfl ht (answerAckNotice_ok fifteen c0) rfl
  · exact exec_refused rfl ht (answerSetNotice_badParam uncoded)
  · exact NoticePort.configure_enable _ _ _ _ c
  · exact NoticePort.configure_priority _ _ _ _ c
  · exact exec_refused rfl ht (answerSetThreshold_badParam uncoded)
  · exact exec_answered rfl ht (answerSetThreshold_ok coded) rfl

end Sys2Proof.Machine

namespace Sys2Proof.Machine

open Sys2Proof

/-! ## What a step takes (section 4.3 of the scope) -/

section Steps

variable {s : State}

/-- The RESET pin stops the clock of every block. -/
theorem State.tick_of_inReset (held : s.inReset = true) : s.tick = s :=
  if_pos held

/-- Out of reset, expiries join behind the commands that already wait. -/
theorem State.tick_of_released (released : s.inReset = false) :
    s.tick = { s.count with pending := s.pending ++ s.count.due } :=
  if_neg (Bool.eq_false_iff.mp released)

theorem step_of_front {c : Instr} {rest : List Instr} (waiting : s.pending = c :: rest) :
    step s = exec c { s with pending := rest } := by
  rw [step, waiting]

theorem step_of_idle (idle : s.pending = []) : step s = .next s.tick := by
  rw [step, idle]

end Steps

/-- Settles O1, by whether a command waits and, where none does, by the RESET pin. -/
theorem stepTakesFrontCommandOrCounts : Obligations.StepTakesFrontCommandOrCounts := by
  refine ⟨fun c rest s waiting => step_of_front waiting, fun s idle => ⟨fun held => ?_, fun released => ?_⟩⟩
  · rw [step_of_idle idle, State.tick_of_inReset held]
  · rw [step_of_idle idle, State.tick_of_released released, idle, List.nil_append]

end Sys2Proof.Machine
